-- ==== Sys2Proof/Word.lean ====
section
/-! DEFINITION. The plain types the spec's widths give (`00_scope.md` R14, R16): a host-visible register, a byte of the
bus, a line index as a command word holds it. -/

namespace Sys2Proof

/-- A host-visible register or a command word: 32 bits (R14, R100). -/
abbrev Word := BitVec 32

/-- One byte as the host bus numbers the bytes of a register (R74). -/
abbrev Byte := BitVec 8

/-- A line index: the 5-bit LINE field of a command word (R102). It is legal when it is below NLINES (R8). -/
abbrev Line := BitVec 5

/-- The deadline field TMO of a command word, in microseconds: 16 bits (R14). -/
abbrev Timeout := BitVec 16

end Sys2Proof
end

