-- ==== Sys2Proof/Config.lean ====
section
/-! DEFINITION. What an implementation fixes: the parameters of `00_scope.md` R8 to R11 and of
`92_eei_decisions.md` D29, D41 and D44, the example configuration R13, and the free value of the spec: the sampled levels
(`40_timed_wait.md` R136). -/

namespace Sys2Proof

/-- The level of a line: `true` is 1 (high), `false` is 0 (low). -/
abbrev Level := Bool

/-- The levels sampled at one tick, one for each line index (R51). Only the entries below NLINES are lines. -/
abbrev Levels := Vector Level 32

/-- A pin of the platform, by the number the platform gives it (D44, log 28). -/
abbrev Pin := Nat

/-- One entry of ECHO_TABLE (R10): the selector value SELCODE[i] and the lines TRIG[i] and ECHOL[i]. -/
structure EchoEntry where
  selcode : BitVec 8
  trig : Line
  echol : Line
  deriving DecidableEq, Repr

/-- The parameters of the hardware. They are no state of the engine (R30): a model takes them as parameters, and this
one carries them in `State.cfg`, which no step changes (log 3). -/
structure Config where
  /-- NLINES, the number of lines (R8). -/
  nLines : Nat
  /-- BASE, the bus address of the register window (R9). -/
  base : Nat
  /-- ECHO_TABLE, three entries (R10). -/
  echoTable : Vector EchoEntry 3
  /-- AUX_ENTRY (R11). -/
  auxEntry : Fin 3
  /-- AUX_LINE (R11). -/
  auxLine : Line
  /-- HOST_ORDERED_IO: the host platform performs its window accesses in program order (R85, D29). -/
  hostOrderedIo : Bool
  /-- WINDOW_UNCACHED: one bus access for each host access (R89, D41). -/
  windowUncached : Bool
  /-- LINE_ROUTING: the pin each line is wired to, where it is wired (R254, D44, log 28). -/
  lineRouting : Vector (Option Pin) 32
  deriving DecidableEq, Repr

/-- R10: the three selector values are pairwise distinct. -/
def Config.selectorsDistinct (c : Config) : Bool :=
  c.echoTable[0].selcode != c.echoTable[1].selcode && c.echoTable[0].selcode != c.echoTable[2].selcode
    && c.echoTable[1].selcode != c.echoTable[2].selcode

/-- R8, R10, R11: a line index is legal when it is below NLINES. -/
def Config.lineLegal (c : Config) (l : Line) : Bool := decide (l.toNat < c.nLines)

/-- R10: the lines of an entry are below NLINES. -/
def Config.entryLegal (c : Config) (e : EchoEntry) : Bool := c.lineLegal e.trig && c.lineLegal e.echol

/-- The constraints of R8 to R11. A model refuses a configuration that breaks one (R11, D39, I11). -/
def Config.legal (c : Config) : Bool :=
  decide (1 ≤ c.nLines) && decide (c.nLines ≤ 32) && decide (c.base % 0x20 = 0) && c.selectorsDistinct
    && c.entryLegal c.echoTable[0] && c.entryLegal c.echoTable[1] && c.entryLegal c.echoTable[2]
    && c.lineLegal c.auxLine
    && c.auxLine != c.echoTable[c.auxEntry].trig && c.auxLine != c.echoTable[c.auxEntry].echol

/-- EXCFG (R13), the spec's example configuration, with the example values of D29, D41 and D44. Its BASE is the model's
choice (DESIGN CHOICE, log 3). -/
def Config.excfg : Config where
  nLines := 16
  base := 0x1000
  echoTable := #v[⟨0x00, 8, 9⟩, ⟨0x01, 10, 11⟩, ⟨0x02, 13, 13⟩]
  auxEntry := 1
  auxLine := 12
  hostOrderedIo := true
  windowUncached := true
  lineRouting := Vector.ofFn (fun l => some l.val)

/-- FREE VALUE. The levels sampled at the n-th tick whose samples no event of `State.inputs` supplies: draws under no
law (R136, I2, log 2). It has no body, so nothing can be proved of a value of it. -/
opaque Config.draw : Nat → Levels

end Sys2Proof
end

