-- ==== Sys2Proof/Syntax.lean ====
section
/-! DEFINITION. The command set as syntax: one constructor per row of `spec/opcode_table.json`
(`30_encoding.md` R102 to R106; R114: these four are the whole set). -/

namespace Sys2Proof

/-- The field a DHTREAD returns, the FLD bit (R103, D37). -/
inductive DhtField where
  /-- FLD = 0. -/
  | humidity
  /-- FLD = 1. -/
  | temperature
  deriving DecidableEq, Repr

/-- A command with the operand fields of its format (R105). TMO is kept also where UNB makes it ignored, because CMD
reads back the whole accepted word (R35). -/
inductive Instr where
  /-- WAITLVL, format L, OP = 1 (R102, R141). -/
  | waitlvl (line : Line) (lvl : Level) (unb : Bool) (tmo : Timeout)
  /-- PULSE, format L, OP = 2 (R102, R143). -/
  | pulse (line : Line) (lvl : Level) (unb : Bool) (tmo : Timeout)
  /-- DHTREAD, format D, OP = 3 (R103, R160). -/
  | dhtread (line : Line) (unb : Bool) (chk : Bool) (fld : DhtField) (tmo : Timeout)
  /-- ECHO, format E, OP = 4 (R104, R190). -/
  | echo (sel : BitVec 8) (tmo : Timeout)
  deriving DecidableEq, Repr

end Sys2Proof
end

