-- ==== Sys2Proof/WellFormed.lean ====
section
/-! DEFINITION. Which commands are well formed for a given NLINES: the line check of `30_encoding.md` R107 (c). No other
operand value of a command is illegal (R109). -/

namespace Sys2Proof

/-- R107 (c), R108: a command with a LINE field needs LINE < NLINES; an ECHO needs nothing. -/
def Instr.wf (nLines : Nat) : Instr → Bool
  | .waitlvl line _ _ _ => decide (line.toNat < nLines)
  | .pulse line _ _ _ => decide (line.toNat < nLines)
  | .dhtread line _ _ _ _ => decide (line.toNat < nLines)
  | .echo _ _ => true

end Sys2Proof
end

