-- ==== Sys2Proof/Decode.lean ====
section
/-! DEFINITION. The decoder of command words, total on any word and any bytes and rejecting by name
(`30_encoding.md` R105 to R108, R113), and the encoder written from the same formats (R102 to R104). -/

namespace Sys2Proof

/-- Why a word or a string of bytes is no command. -/
inductive Reject where
  /-- R107 (a): OP is 0 or at least 5. -/
  | opcode
  /-- R107 (b): a reserved bit of the word's format is 1. -/
  | reservedBit
  /-- R107 (c): the format has LINE, and LINE >= NLINES. -/
  | lineRange
  /-- Fewer than the four bytes of a command (R100). -/
  | truncated
  deriving DecidableEq, Repr

/-! ## Operand fields (R101 to R105) -/

/-- OP = w[31:28] (R101). -/
def opField (w : Word) : BitVec 4 := w.extractLsb' 28 4

/-- LINE = w[27:23], formats L and D (R102, R103). -/
def lineField (w : Word) : Line := w.extractLsb' 23 5

/-- LVL = w[22], format L (R102). -/
def lvlField (w : Word) : Level := w.getLsbD 22

/-- UNB = w[21], formats L and D (R102, R103). -/
def unbField (w : Word) : Bool := w.getLsbD 21

/-- CHK = w[20], format D (R103). -/
def chkField (w : Word) : Bool := w.getLsbD 20

/-- FLD = w[19], format D (R103). -/
def fldField (w : Word) : DhtField := if w.getLsbD 19 then .temperature else .humidity

/-- SEL = w[27:20], format E (R104). -/
def selField (w : Word) : BitVec 8 := w.extractLsb' 20 8

/-- TMO = w[15:0], every format (R102 to R104). -/
def tmoField (w : Word) : Timeout := w.extractLsb' 0 16

/-- Format L: the reserved bits w[20:16] are 0 (R102). -/
def reservedClearL (w : Word) : Bool := w.extractLsb' 16 5 == 0

/-- Format D: the reserved bits w[22] and w[18:16] are 0 (R103). -/
def reservedClearD (w : Word) : Bool := w.extractLsb' 22 1 == 0 && w.extractLsb' 16 3 == 0

/-- Format E: the reserved bits w[19:16] are 0 (R104). -/
def reservedClearE (w : Word) : Bool := w.extractLsb' 16 4 == 0

/-! ## Decoding -/

/-- R107 (b) and (c) for a format with a LINE field: the command, or the reason there is none. -/
def decodeLined (nLines : Nat) (w : Word) (reservedClear : Bool) (i : Instr) : Except Reject Instr :=
  if reservedClear then
    if (lineField w).toNat < nLines then .ok i else .error .lineRange
  else .error .reservedBit

/-- The decoder (R105 to R107, R113): for each word one command with its fields, or the reason it is illegal. -/
def decode (nLines : Nat) (w : Word) : Except Reject Instr :=
  if opField w = 1 then
    decodeLined nLines w (reservedClearL w) (.waitlvl (lineField w) (lvlField w) (unbField w) (tmoField w))
  else if opField w = 2 then
    decodeLined nLines w (reservedClearL w) (.pulse (lineField w) (lvlField w) (unbField w) (tmoField w))
  else if opField w = 3 then
    decodeLined nLines w (reservedClearD w)
      (.dhtread (lineField w) (unbField w) (chkField w) (fldField w) (tmoField w))
  else if opField w = 4 then
    if reservedClearE w then .ok (.echo (selField w) (tmoField w)) else .error .reservedBit
  else .error .opcode

/-- The legality predicate as R108 writes it, apart from the decoder. -/
def legalWord (nLines : Nat) (w : Word) : Bool :=
  match (opField w).toNat with
  | 1 | 2 => w.extractLsb' 16 5 == 0 && decide ((lineField w).toNat < nLines)
  | 3 => w.getLsbD 22 == false && w.extractLsb' 16 3 == 0 && decide ((lineField w).toNat < nLines)
  | 4 => w.extractLsb' 16 4 == 0
  | _ => false

/-- One row of the opcode map (R106): a word matches when (w AND mask) = match. -/
structure OpRow where
  mnemonic : String
  pattern : Word
  mask : Word
  /-- Does the row's format have a LINE field (R107 (c))? -/
  hasLine : Bool
  deriving DecidableEq, Repr

/-- The opcode map of R106. -/
def opRows : List OpRow :=
  [⟨"WAITLVL", 0x10000000, 0xF01F0000, true⟩, ⟨"PULSE", 0x20000000, 0xF01F0000, true⟩,
   ⟨"DHTREAD", 0x30000000, 0xF0470000, true⟩, ⟨"ECHO", 0x40000000, 0xF00F0000, false⟩]

/-- R106: a word matches a row. -/
def rowMatches (r : OpRow) (w : Word) : Bool := w &&& r.mask == r.pattern

/-! ## Encoding -/

/-- The FLD bit of a field (R103). -/
def fldBit : DhtField → Bool
  | .humidity => false
  | .temperature => true

/-- The word of a command (R102 to R104), every reserved bit 0. -/
def encode : Instr → Word
  | .waitlvl line lvl unb tmo => 1#4 ++ line ++ BitVec.ofBool lvl ++ BitVec.ofBool unb ++ 0#5 ++ tmo
  | .pulse line lvl unb tmo => 2#4 ++ line ++ BitVec.ofBool lvl ++ BitVec.ofBool unb ++ 0#5 ++ tmo
  | .dhtread line unb chk fld tmo =>
    3#4 ++ line ++ 0#1 ++ BitVec.ofBool unb ++ BitVec.ofBool chk ++ BitVec.ofBool (fldBit fld) ++ 0#3 ++ tmo
  | .echo sel tmo => 4#4 ++ sel ++ 0#4 ++ tmo

/-! ## Bytes -/

/-- A 32-bit word from its bytes, byte offset k at bits [8k+7:8k] (R74). -/
def wordOfBytes (b0 b1 b2 b3 : Byte) : Word := b3 ++ b2 ++ b1 ++ b0

/-- The bytes of a word, the one at the lowest offset first (R74). -/
def bytesOfWord (w : Word) : List Byte :=
  [w.extractLsb' 0 8, w.extractLsb' 8 8, w.extractLsb' 16 8, w.extractLsb' 24 8]

/-- The decoder on bytes as the bus numbers them: the command of the first four and the rest (R74, R100). -/
def decodeBytes (nLines : Nat) : List Byte → Except Reject (Instr × List Byte)
  | b0 :: b1 :: b2 :: b3 :: rest =>
    match decode nLines (wordOfBytes b0 b1 b2 b3) with
    | .ok i => .ok (i, rest)
    | .error r => .error r
  | _ => .error .truncated

/-- The host's question about a row of the table: the command this decoder reads, under EXCFG's NLINES (R13), from the
bits w numbered as the table numbers them. A command is one 32-bit word (R100), so a row longer than that is none. -/
def decodeTableWord (nbits w : Nat) : Option Instr :=
  if nbits ≤ 32 then
    match decodeBytes Config.excfg.nLines (bytesOfWord (BitVec.ofNat 32 (w % 2 ^ nbits))) with
    | .ok (i, []) => some i
    | _ => none
  else none

end Sys2Proof
end

