-- ==== Sys2Proof/Machine/Constants.lean ====
section
/-! DEFINITION. The fixed constants of `00_scope.md` R12, each in one named definition (D33). The source calls its numeric
literals unaudited; they are normative as stated (I9, log 25). -/

namespace Sys2Proof.Machine

/-- Ticks the single-wire line is driven low to wake the sensor (R12, R162). -/
def wakeLowTicks : Nat := 18000

/-- Ticks it is then driven high (R12, R163). -/
def wakeHighTicks : Nat := 40

/-- A high duration d gives bit 1 iff d > 40 (R12, R167). -/
def bitThreshold : Nat := 40

/-- Bits of a single-wire frame (R12, R166). -/
def frameBits : Nat := 40

/-- Ticks the trigger is low before the trigger pulse (R12, R193). -/
def trigPreLowTicks : Nat := 2

/-- Trigger pulse width in ticks (R12, R194). -/
def trigHighTicks : Nat := 10

/-- The reference echo deadline in microseconds, the default TMO of the `echo` assembly line (R12, R110). -/
def echoRefTimeout : Nat := 25000

/-- Thousandths of a centimetre per microsecond of echo (R12, R197). -/
def distNum : Nat := 17

end Sys2Proof.Machine
end

