-- ==== Sys2Proof/Machine/State.lean ====
section
/-! DEFINITION. The state of the machine as plain data: the engine's own state (`10_state.md` R30, R34, R49, R50, R56),
the events of the agents around it (`00_scope.md` R6), what it puts out, and the reset values (R57). -/

namespace Sys2Proof.Machine

/-- The phase codes 0 to 14 (R34). Code 15 is never held, so it is not representable (I4, log 11). -/
inductive Phase where
  | idle
  | wlWait
  | pmRise
  | pmHold
  | dhWakeLow
  | dhWakeHigh
  | dhHs1
  | dhHs2
  | dhHs3
  | dhBitRise
  | dhBitHold
  | ecTrigLow
  | ecTrigHigh
  | ecRise
  | ecHold
  deriving DecidableEq, Repr

/-- The result codes 0 to 5 (R40, R222). Codes 6 to 15 are never produced (I4, log 11). -/
inductive ResCode where
  | none
  | ok
  | timeout
  | unsupported
  | checksum
  | illegal
  deriving DecidableEq, Repr

/-- The pull modes the engine requests (R52): NONE = 0 and UP = 1. Codes 2 and 3 are never written (I4, log 11). -/
inductive Pull where
  | none
  | up
  deriving DecidableEq, Repr

/-- The request for one line (R50): LOE, LOUT and LPULL. -/
structure LineReq where
  oe : Bool
  out : Level
  pull : Pull
  deriving DecidableEq, Repr

/-- The line interface's reset value (R57): released, no pull. -/
def LineReq.released : LineReq := ⟨false, false, .none⟩

/-- The engine's own state (R30), in the order of R57. -/
structure Engine where
  /-- CMD: the last accepted word (R35). -/
  cmd : Word
  /-- STATUS.BUSY (R37). -/
  busy : Bool
  /-- STATUS.DONE (R38). -/
  done : Bool
  /-- STATUS.OVR (R39). -/
  ovr : Bool
  /-- STATUS.RES (R40). -/
  res : ResCode
  /-- PHASE, shown in STATUS.PHASE (R34, R41). -/
  phase : Phase
  /-- BITCNT, shown in STATUS.BITCNT (R42). -/
  bitcnt : BitVec 6
  /-- RESULT (R44). -/
  result : Word
  /-- DUR (R45). -/
  dur : Word
  /-- SR, read through FRAME0 and FRAME1 (R46, R47, R49). -/
  sr : BitVec 40
  /-- CNT, the elapsed-tick counter of the current phase (R49). -/
  cnt : Word
  /-- RISE, the count at which a pulse start was seen (R49, R137). -/
  rise : Word
  /-- CUR.IDX, the selected ECHO_TABLE entry (R56, R191). -/
  curIdx : Fin 3
  /-- LOE, LOUT and LPULL of each line (R50). Entries at or above NLINES are no lines (log 10). -/
  lines : Vector LineReq 32
  deriving DecidableEq, Repr

/-- R57: every element of the engine's state at its reset value. -/
def Engine.reset : Engine where
  cmd := 0
  busy := false
  done := false
  ovr := false
  res := .none
  phase := .idle
  bitcnt := 0
  result := 0
  dur := 0
  sr := 0
  cnt := 0
  rise := 0
  curIdx := 0
  lines := Vector.replicate 32 LineReq.released

/-- What a host access does: a read, or a write of the value v (R72). -/
inductive AccessKind where
  | read
  | write (v : Word)
  deriving DecidableEq, Repr

/-- One atomic step of an agent outside the sequencer (R6, R131). -/
inductive Event where
  /-- A host access of `size` bytes at the bus address `addr` (R71 to R73). -/
  | access (addr size : Nat) (kind : AccessKind)
  /-- A tick with the levels the environment supplies (R51, R53, R130). -/
  | tick (levels : Levels)
  /-- The reset input (R250). -/
  | reset
  deriving DecidableEq, Repr

/-- One event on the line interface (R18, R50). -/
inductive LineEvent where
  /-- drive(l, v): line l requested as an output at level v. -/
  | drive (l : Line) (v : Level)
  /-- release(l, p): line l requested as an input with pull mode p. -/
  | release (l : Line) (p : Pull)
  deriving DecidableEq, Repr

/-- What the engine answers on the bus. -/
inductive Reply where
  /-- The data given to a legal read at `addr` (R78). -/
  | data (addr : Nat) (v : Word)
  /-- A bus error (R73): a fault of the host's step, recorded and never cleared (R229). -/
  | busError (addr : Nat)
  deriving DecidableEq, Repr

/-- The whole machine. Only `eng` is state of the engine (R30); the other fields are the model's own. -/
structure State where
  /-- The parameters (R8 to R11); no step changes them (log 3). -/
  cfg : Config
  /-- The engine's state (R30). -/
  eng : Engine
  /-- The events still to come, in the order they perform, which for host accesses is the order issued (R85, R131). Where it is empty, the next event is a tick with free
  levels (log 1). -/
  inputs : List Event
  /-- How many free samples have been drawn (log 2). -/
  drawNo : Nat
  /-- The line events emitted so far, oldest first (R18, log 9). -/
  lineEvents : List LineEvent
  /-- The read data and bus errors so far, oldest first, never cleared (R78, R229, log 6, log 7). -/
  busLog : List Reply
  deriving DecidableEq, Repr

/-- Why the machine stops with a fault. -/
inductive Fault where
  /-- Raised by a tick with BUSY = 1 and PHASE = IDLE, for which the spec has no phase rule; R58 says no reachable
  state is so. Safe: the model stops where the spec gives no effect (log 12). -/
  | busyWithoutPhase
  deriving DecidableEq, Repr

/-- Why a step has no meaning. -/
inductive Refusal where
  /-- Raised by an arm of exec whose instruction has no meaning yet (no arm is so now). Safe: nothing is claimed. -/
  | notModelled (mnemonic : String)
  /-- Raised by every step and every accepted command under a configuration that breaks R8 to R11: "a model refuses a
  configuration that breaks this" (R11, I11). Safe: the spec gives such a configuration no meaning (log 4). -/
  | illegalConfiguration
  /-- Raised by a host access to the window when WINDOW_UNCACHED is false: such a model is refused (I13, R89).
  Safe (log 5). -/
  | windowCached
  deriving DecidableEq, Repr

/-- The machine right after reset (R57): the engine idle, no event to come, nothing put out. The configuration is EXCFG
(log 3). -/
def State.reset : State where
  cfg := Config.excfg
  eng := Engine.reset
  inputs := []
  drawNo := 0
  lineEvents := []
  busLog := []

end Sys2Proof.Machine
end

