-- ==== Sys2Proof/Machine/Flags.lean ====
section
/-! DEFINITION. The codes and status bits of the engine (`10_state.md` R34, R36, R40, R52; `60_exceptions.md` R222, R224)
and the whole of its arithmetic (`40_timed_wait.md` R146). -/

namespace Sys2Proof.Machine

/-! ## Codes -/

/-- The 4-bit code of a phase (R34). -/
def Phase.code : Phase → BitVec 4
  | .idle => 0
  | .wlWait => 1
  | .pmRise => 2
  | .pmHold => 3
  | .dhWakeLow => 4
  | .dhWakeHigh => 5
  | .dhHs1 => 6
  | .dhHs2 => 7
  | .dhHs3 => 8
  | .dhBitRise => 9
  | .dhBitHold => 10
  | .ecTrigLow => 11
  | .ecTrigHigh => 12
  | .ecRise => 13
  | .ecHold => 14

/-- The 4-bit code of a result (R40, R222). -/
def ResCode.code : ResCode → BitVec 4
  | .none => 0
  | .ok => 1
  | .timeout => 2
  | .unsupported => 3
  | .checksum => 4
  | .illegal => 5

/-- The 2-bit code LPULL of a pull mode (R52). -/
def Pull.code : Pull → BitVec 2
  | .none => 0
  | .up => 1

/-- The value `finish` puts into RESULT for a code that has a sentinel (R140, R224). -/
def ResCode.sentinel : ResCode → Option Word
  | .timeout => some 0xFFFFFFFE
  | .unsupported => some 0xFFFFFFFF
  | .illegal => some 0xFFFFFFFD
  | .none => Option.none
  | .ok => Option.none
  | .checksum => Option.none

/-- The codes with which `finish` clears DUR (R140). -/
def ResCode.clearsDur : ResCode → Bool
  | .unsupported => true
  | .illegal => true
  | .none => false
  | .ok => false
  | .timeout => false
  | .checksum => false

/-! ## The registers a read assembles -/

/-- The STATUS word (R36, R78). -/
def statusWord (e : Engine) : Word :=
  0#14 ++ e.bitcnt ++ e.phase.code ++ e.res.code ++ 0#1 ++ BitVec.ofBool e.ovr ++ BitVec.ofBool e.done
    ++ BitVec.ofBool e.busy

/-- FRAME0 reads SR[39:8] (R46). -/
def frame0 (e : Engine) : Word := e.sr.extractLsb' 8 32

/-- FRAME1 reads zext_32(SR[7:0]) (R47). -/
def frame1 (e : Engine) : Word := (e.sr.extractLsb' 0 8).zeroExtend 32

/-! ## Arithmetic (R146) -/

/-- sat32(v) = min(v, 0xFFFFFFFF) (R16). -/
def sat32 (v : Nat) : Word := BitVec.ofNat 32 (min v 0xFFFFFFFF)

/-- The per-bit classifier (R167). -/
def classify (d : Word) : Bool := decide (bitThreshold < d.toNat)

/-- SR <- ((SR << 1) OR b) mod 2^40 (R166). -/
def shiftIn (sr : BitVec 40) (b : Bool) : BitVec 40 := (sr <<< 1) ||| (BitVec.ofBool b).zeroExtend 40

/-- The humidity-integer byte SR[39:32] (R168). -/
def humInt (sr : BitVec 40) : Byte := sr.extractLsb' 32 8

/-- The humidity-fraction byte SR[31:24] (R168). -/
def humFrac (sr : BitVec 40) : Byte := sr.extractLsb' 24 8

/-- The temperature-integer byte SR[23:16] (R168). -/
def tempInt (sr : BitVec 40) : Byte := sr.extractLsb' 16 8

/-- The temperature-fraction byte SR[15:8] (R168). -/
def tempFrac (sr : BitVec 40) : Byte := sr.extractLsb' 8 8

/-- The checksum byte SR[7:0] (R168). -/
def checkByte (sr : BitVec 40) : Byte := sr.extractLsb' 0 8

/-- The checksum test of R170: CK = (HI + HF + TI + TF) mod 256. The spec marks this formula as from general knowledge
(R171, I7, log 21). -/
def checksumGood (sr : BitVec 40) : Bool :=
  decide ((checkByte sr).toNat =
    ((humInt sr).toNat + (humFrac sr).toNat + (tempInt sr).toNat + (tempFrac sr).toNat) % 256)

/-- The byte FLD selects (R170). -/
def selectField (f : DhtField) (sr : BitVec 40) : Byte :=
  match f with
  | .humidity => humInt sr
  | .temperature => tempInt sr

/-- RESULT <- 17 * d, thousandths of a centimetre (R197). -/
def distance (d : Word) : Word := BitVec.ofNat 32 (distNum * d.toNat)

end Sys2Proof.Machine
end

