-- ==== Sys2Proof/Machine/Operands.lean ====
section
/-! DEFINITION. The operands of the command in progress: the latched fields CUR (`10_state.md` R56) read from CMD by the
decoding of `30_encoding.md` R105, and the selector lookup of `42_echo.md` R191. -/

namespace Sys2Proof.Machine

/-- CUR.OP (R105). -/
def curOp (e : Engine) : BitVec 4 := opField e.cmd

/-- CUR.LINE (R105). -/
def curLine (e : Engine) : Line := lineField e.cmd

/-- CUR.LVL (R105). -/
def curLvl (e : Engine) : Level := lvlField e.cmd

/-- CUR.UNB: bit 21 in formats L and D, 0 for ECHO (R105). -/
def curUnb (e : Engine) : Bool := curOp e != 4 && unbField e.cmd

/-- CUR.CHK (R105). -/
def curChk (e : Engine) : Bool := chkField e.cmd

/-- CUR.FLD (R105). -/
def curFld (e : Engine) : DhtField := fldField e.cmd

/-- CUR.SEL (R105). -/
def curSel (e : Engine) : BitVec 8 := selField e.cmd

/-- CUR.TMO = zext_32(CMD[15:0]) (R105). -/
def curTmo (e : Engine) : Word := (tmoField e.cmd).zeroExtend 32

/-- Entry i of ECHO_TABLE (R10). -/
def echoEntry (c : Config) (i : Fin 3) : EchoEntry := c.echoTable[i]

/-- CUR.TRIG = TRIG[CUR.IDX] (R56). -/
def curTrig (c : Config) (e : Engine) : Line := (echoEntry c e.curIdx).trig

/-- CUR.ECHOL = ECHOL[CUR.IDX] (R56). -/
def curEchol (c : Config) (e : Engine) : Line := (echoEntry c e.curIdx).echol

/-- The i with SELCODE[i] = SEL, where there is one (R191). It is unique by R10. -/
def lookupSel (c : Config) (sel : BitVec 8) : Option (Fin 3) :=
  if (echoEntry c 0).selcode = sel then some 0
  else if (echoEntry c 1).selcode = sel then some 1
  else if (echoEntry c 2).selcode = sel then some 2
  else none

/-- sample(l): the level of line l at the current tick (R18, R51). -/
def sample (levels : Levels) (l : Line) : Level := levels[l.toNat]

end Sys2Proof.Machine
end

