-- ==== Sys2Proof/Machine/Ops.lean ====
section
/-! DEFINITION. The named operations on the state: the line primitives (`00_scope.md` R18), acceptance and the busy drop
(`20_memory.md` R80, R81), `finish` and the generic phases (`40_timed_wait.md` R133, R134, R137, R140), the bus
error (R73) and reset (`70_reset_and_hazards.md` R250). The engine takes no exception and returns from none (R220, R227). -/

namespace Sys2Proof.Machine

/-! ## The line interface -/

/-- drive(l, v): LOE[l] <- 1, LOUT[l] <- v, and one drive event (R18). LPULL[l] is kept (R50). -/
def State.drive (s : State) (l : Line) (v : Level) : State :=
  { s with
    eng.lines := s.eng.lines.set l.toNat { s.eng.lines[l.toNat] with oe := true, out := v }
    lineEvents := s.lineEvents ++ [.drive l v] }

/-- release(l, p): LOE[l] <- 0, LPULL[l] <- p, and one release event (R18). LOUT[l] is kept (R50). -/
def State.release (s : State) (l : Line) (p : Pull) : State :=
  { s with
    eng.lines := s.eng.lines.set l.toNat { s.eng.lines[l.toNat] with oe := false, pull := p }
    lineEvents := s.lineEvents ++ [.release l p] }

/-! ## The sequencer's position -/

/-- PHASE <- p; CNT <- 0: how every phase is entered but the hold phase of a pulse measurement (R133, R134). -/
def State.enterPhase (s : State) (p : Phase) : State := { s with eng.phase := p, eng.cnt := 0 }

/-- BUSY <- 1 with the command's first phase (R37, R41). -/
def State.startPhase (s : State) (p : Phase) : State := { s with eng.phase := p, eng.cnt := 0, eng.busy := true }

/-- finish(code) (R140). PHASE, CNT, RISE, BITCNT, SR and every line request are left. -/
def State.finish (s : State) (code : ResCode) : State :=
  { s with
    eng.busy := false
    eng.done := true
    eng.res := code
    eng.result := code.sentinel.getD s.eng.result
    eng.dur := if code.clearsDur then 0 else s.eng.dur }

/-! ## Acceptance -/

/-- The first lines of R80: the word latched and the outcome record cleared. OVR and SR are kept. -/
def State.latch (s : State) (w : Word) : State :=
  { s with
    eng.cmd := w
    eng.done := false
    eng.res := .none
    eng.bitcnt := 0
    eng.cnt := 0
    eng.rise := 0
    eng.result := 0
    eng.dur := 0 }

/-- A CMD write while BUSY = 1 is dropped: OVR <- 1, nothing else changes (R81). -/
def State.overrun (s : State) : State := { s with eng.ovr := true }

/-- A command that ends at acceptance: PHASE <- IDLE; finish(code) (R41, R80, R191). -/
def State.endAtAcceptance (s : State) (code : ResCode) : State :=
  { s with eng.phase := .idle }.finish code

/-- The host's write of the word w to CMD, in the order of R225: dropped while busy (R81); else latched (R80), and then
ILLEGAL where `Legal(w)` fails, else `start`, the command's own acceptance. -/
def accept (w : Word) (start : State → State) (s : State) : Host.Outcome State Fault Refusal :=
  if s.cfg.legal then
    if s.eng.busy then .next s.overrun
    else if legalWord s.cfg.nLines w then .next (start (s.latch w))
    else .next ((s.latch w).endAtAcceptance .illegal)
  else .refused .illegalConfiguration

/-! ## The generic phases -/

/-- The deadline of a wait phase has passed: DUR <- e; finish(TIMEOUT) (R133). -/
def State.timeOut (s : State) : State := { s with eng.dur := s.eng.cnt }.finish .timeout

/-- No match and no timeout: CNT <- sat32(e + 1) (R133, R138). -/
def State.countOn (s : State) : State := { s with eng.cnt := sat32 (s.eng.cnt.toNat + 1) }

/-- A wait phase (R133): line l, level v, bound flag `bounded`, deadline T = CUR.TMO. A match is allowed when the wait is
unbounded or `inTime e T` holds; it wins over the timeout. -/
def waitTick (levels : Levels) (l : Line) (v : Level) (bounded : Bool) (inTime : Nat → Nat → Bool)
    (onMatch : State → State) (s : State) : State :=
  if sample levels l = v && (!bounded || inTime s.eng.cnt.toNat (curTmo s.eng).toNat) then onMatch s
  else if bounded && decide ((curTmo s.eng).toNat ≤ s.eng.cnt.toNat) then s.timeOut
  else s.countOn

/-- The test e <= T of a wait phase that is no rise phase (R133, log 13). -/
def byDeadline (e t : Nat) : Bool := decide (e ≤ t)

/-- The test e < T of a rise phase (R137). -/
def beforeDeadline (e t : Nat) : Bool := decide (e < t)

/-- The match of a rise phase: RISE <- e; PHASE <- the hold phase; CNT <- sat32(e + 1) (R137). -/
def State.riseSeen (hold : Phase) (s : State) : State :=
  { s with eng.rise := s.eng.cnt, eng.phase := hold, eng.cnt := sat32 (s.eng.cnt.toNat + 1) }

/-- The rise phase of a pulse measurement of level v (R137). -/
def riseTick (levels : Levels) (l : Line) (v : Level) (bounded : Bool) (hold : Phase) (s : State) : State :=
  waitTick levels l v bounded beforeDeadline (State.riseSeen hold) s

/-- The duration of a pulse at the tick its end is seen: d = e - RISE (R137, R146). -/
def pulseDuration (e : Engine) : Word := e.cnt - e.rise

/-- The hold phase of a pulse measurement of level v: it waits for the level not v, and its match takes the duration d
(R137). -/
def holdTick (levels : Levels) (l : Line) (v : Level) (bounded : Bool) (onEnd : Word → State → State)
    (s : State) : State :=
  waitTick levels l (!v) bounded byDeadline (fun s => onEnd (pulseDuration s.eng) s) s

/-- A delay phase of length d (R134): at CNT = d its action, then the next phase with CNT = 0. CNT saturates (R49, log 14). -/
def delayTick (d : Nat) (action : State → State) (next : Phase) (s : State) : State :=
  let s' := s.countOn
  if s'.eng.cnt.toNat = d then (action s').enterPhase next else s'

/-! ## The bus and reset -/

/-- Data given to a legal read (R78): recorded, the engine unchanged (R76). -/
def State.replyData (s : State) (addr : Nat) (v : Word) : State :=
  { s with busLog := s.busLog ++ [.data addr v] }

/-- raise BusError(addr) (R17, R73): recorded, the engine unchanged. -/
def State.raiseBusError (s : State) (addr : Nat) : State :=
  { s with busLog := s.busLog ++ [.busError addr] }

/-- The reset input (R250): every element of the engine's state at its reset value, with no finish and no line event. -/
def State.hardReset (s : State) : State := { s with eng := Engine.reset }

end Sys2Proof.Machine
end

