-- ==== Sys2Proof/Machine/Echo.lean ====
section
/-! DEFINITION. ECHO: the echo-pulse timer and distance converter (`42_echo.md` R190 to R198). Every wait of it is bounded. -/

namespace Sys2Proof.Machine

/-! ## Acceptance -/

/-- The line actions of the setup for entry i, in the order of R192: the aux line high (aux entry only), the trigger low,
a separate echo line released with no pull. -/
def setupLines (i : Fin 3) (s : State) : State :=
  let s1 := if i = s.cfg.auxEntry then s.drive s.cfg.auxLine true else s
  let s2 := s1.drive (echoEntry s.cfg i).trig false
  if (echoEntry s.cfg i).echol ≠ (echoEntry s.cfg i).trig then s2.release (echoEntry s.cfg i).echol .none else s2

/-- accept_echo (R191, R192): UNSUPPORTED where no entry has the selector, else CUR.IDX, the setup and EC_TRIG_LOW. -/
def acceptEcho (sel : BitVec 8) (s : State) : State :=
  match lookupSel s.cfg sel with
  | none => s.endAtAcceptance .unsupported
  | some i => (setupLines i { s with eng.curIdx := i }).startPhase .ecTrigLow

/-- ECHO at acceptance (R191, R192). -/
def execEcho (sel : BitVec 8) (tmo : Timeout) (s : State) : Host.Outcome State Fault Refusal :=
  accept (encode (.echo sel tmo)) (acceptEcho sel) s

/-! ## Trigger -/

/-- A tick in EC_TRIG_LOW (R193). -/
def tickEcTrigLow (s : State) : State :=
  delayTick trigPreLowTicks (fun s => s.drive (curTrig s.cfg s.eng) true) .ecTrigHigh s

/-- The end of the trigger pulse (R194, R200): the trigger low, and a same-pin line released with no pull. -/
def endTrigger (s : State) : State :=
  let s1 := s.drive (curTrig s.cfg s.eng) false
  if curEchol s.cfg s.eng = curTrig s.cfg s.eng then s1.release (curEchol s.cfg s.eng) .none else s1

/-- A tick in EC_TRIG_HIGH (R194). -/
def tickEcTrigHigh (s : State) : State := delayTick trigHighTicks endTrigger .ecRise s

/-! ## Measurement -/

/-- A tick in EC_RISE (R195). -/
def tickEcRise (levels : Levels) (s : State) : State :=
  riseTick levels (curEchol s.cfg s.eng) true true .ecHold s

/-- The end of the echo (R196, R197): DUR <- d; RESULT <- 17 * d; finish(OK). -/
def echoEnd (d : Word) (s : State) : State :=
  { s with eng.dur := d, eng.result := distance d }.finish .ok

/-- A tick in EC_HOLD (R196). -/
def tickEcHold (levels : Levels) (s : State) : State :=
  holdTick levels (curEchol s.cfg s.eng) true true echoEnd s

end Sys2Proof.Machine
end

