-- ==== Sys2Proof/Machine/SingleWire.lean ====
section
/-! DEFINITION. DHTREAD: the single-wire protocol decoder (`41_single_wire.md` R160 to R170). -/

namespace Sys2Proof.Machine

/-! ## Acceptance -/

/-- accept_dht (R161): SR <- 0; the line driven low; PHASE <- DH_WAKE_LOW; CNT <- 0; BUSY <- 1. -/
def acceptDht (line : Line) (s : State) : State :=
  ({ s with eng.sr := 0 }.drive line false).startPhase .dhWakeLow

/-- DHTREAD at acceptance (R161). -/
def execDhtread (line : Line) (unb : Bool) (chk : Bool) (fld : DhtField) (tmo : Timeout) (s : State) :
    Host.Outcome State Fault Refusal :=
  accept (encode (.dhtread line unb chk fld tmo)) (acceptDht line) s

/-! ## Wake -/

/-- A tick in DH_WAKE_LOW (R162). -/
def tickDhWakeLow (s : State) : State :=
  delayTick wakeLowTicks (fun s => s.drive (curLine s.eng) true) .dhWakeHigh s

/-- A tick in DH_WAKE_HIGH (R163). -/
def tickDhWakeHigh (s : State) : State :=
  delayTick wakeHighTicks (fun s => s.release (curLine s.eng) .up) .dhHs1 s

/-! ## Handshake -/

/-- A handshake wait for level v, with the next phase (R164). -/
def handshakeTick (levels : Levels) (v : Level) (next : Phase) (s : State) : State :=
  waitTick levels (curLine s.eng) v (!curUnb s.eng) byDeadline (fun s => s.enterPhase next) s

/-- A tick in DH_HS1: the line low (R164). -/
def tickDhHs1 (levels : Levels) (s : State) : State := handshakeTick levels false .dhHs2 s

/-- A tick in DH_HS2: the line high (R164). -/
def tickDhHs2 (levels : Levels) (s : State) : State := handshakeTick levels true .dhHs3 s

/-- A tick in DH_HS3: the line low (R164). -/
def tickDhHs3 (levels : Levels) (s : State) : State := handshakeTick levels false .dhBitRise s

/-! ## Bits -/

/-- A tick in DH_BIT_RISE (R165). -/
def tickDhBitRise (levels : Levels) (s : State) : State :=
  riseTick levels (curLine s.eng) true (!curUnb s.eng) .dhBitHold s

/-- extract_and_finish (R170): the selected byte into RESULT, then CHECKSUM where CHK = 1 and the test fails, else OK. -/
def extractAndFinish (s : State) : State :=
  { s with eng.result := (selectField (curFld s.eng) s.eng.sr).zeroExtend 32 }.finish
    (if curChk s.eng && !checksumGood s.eng.sr then .checksum else .ok)

/-- One bit classified (R166, R167): SR, BITCNT and DUR. -/
def storeBit (d : Word) (s : State) : State :=
  { s with eng.sr := shiftIn s.eng.sr (classify d), eng.bitcnt := s.eng.bitcnt + 1, eng.dur := d }

/-- The end of a bit's high part (R166): the bit stored, then extraction after the 40th, else the next bit's rise. -/
def bitEnd (d : Word) (s : State) : State :=
  let s' := storeBit d s
  if s'.eng.bitcnt.toNat = frameBits then extractAndFinish s' else s'.enterPhase .dhBitRise

/-- A tick in DH_BIT_HOLD (R166). -/
def tickDhBitHold (levels : Levels) (s : State) : State :=
  holdTick levels (curLine s.eng) true (!curUnb s.eng) bitEnd s

end Sys2Proof.Machine
end

