-- ==== Sys2Proof/Machine/TimedWait.lean ====
section
/-! DEFINITION. WAITLVL and PULSE: the timed-wait primitive as commands (`40_timed_wait.md` R141, R143). -/

namespace Sys2Proof.Machine

/-- Finish with RES = OK and RESULT = DUR = v (R141, R143). -/
def State.finishValue (v : Word) (s : State) : State :=
  { s with eng.dur := v, eng.result := v }.finish .ok

/-! ## Acceptance -/

/-- WAITLVL at acceptance: PHASE <- WL_WAIT; BUSY <- 1; no line action (R141). -/
def execWaitlvl (line : Line) (lvl : Level) (unb : Bool) (tmo : Timeout) (s : State) :
    Host.Outcome State Fault Refusal :=
  accept (encode (.waitlvl line lvl unb tmo)) (fun s => s.startPhase .wlWait) s

/-- PULSE at acceptance: PHASE <- PM_RISE; BUSY <- 1; no line action (R143). -/
def execPulse (line : Line) (lvl : Level) (unb : Bool) (tmo : Timeout) (s : State) :
    Host.Outcome State Fault Refusal :=
  accept (encode (.pulse line lvl unb tmo)) (fun s => s.startPhase .pmRise) s

/-! ## Ticks -/

/-- A tick in WL_WAIT (R141). -/
def tickWlWait (levels : Levels) (s : State) : State :=
  waitTick levels (curLine s.eng) (curLvl s.eng) (!curUnb s.eng) byDeadline
    (fun s => s.finishValue s.eng.cnt) s

/-- A tick in PM_RISE (R143). -/
def tickPmRise (levels : Levels) (s : State) : State :=
  riseTick levels (curLine s.eng) (curLvl s.eng) (!curUnb s.eng) .pmHold s

/-- A tick in PM_HOLD (R143). -/
def tickPmHold (levels : Levels) (s : State) : State :=
  holdTick levels (curLine s.eng) (curLvl s.eng) (!curUnb s.eng) (fun d s => s.finishValue d) s

end Sys2Proof.Machine
end

