-- ==== Sys2Proof/Machine/Dispatch.lean ====
section
/-! DEFINITION. The meaning of each command: the host's write of its word to CMD (`20_memory.md` R80, R81). -/

namespace Sys2Proof.Machine

def exec (i : Instr) (s : State) : Host.Outcome State Fault Refusal :=
  match i with
  | .waitlvl line lvl unb tmo => Sys2Proof.Machine.execWaitlvl line lvl unb tmo s
  | .pulse line lvl unb tmo => Sys2Proof.Machine.execPulse line lvl unb tmo s
  | .dhtread line unb chk fld tmo => Sys2Proof.Machine.execDhtread line unb chk fld tmo s
  | .echo sel tmo => Sys2Proof.Machine.execEcho sel tmo s

end Sys2Proof.Machine
end

