-- ==== Sys2Proof/Machine/Bus.lean ====
section
/-! DEFINITION. The host's accesses to the register window (`20_memory.md` R71 to R83). -/

namespace Sys2Proof.Machine

/-- R71: an access at the bus address addr is an access to the engine. -/
def inWindow (c : Config) (addr : Nat) : Bool := decide (c.base ≤ addr) && decide (addr < c.base + 0x20)

/-- R72: the one legal access form, 32 bits at an offset that is a multiple of 4. -/
def accessLegal (c : Config) (addr size : Nat) : Bool := decide (size = 4) && decide ((addr - c.base) % 4 = 0)

/-- The value a legal read at offset off returns (R78). -/
def readReg (e : Engine) (off : Nat) : Word :=
  match off with
  | 0x00 => e.cmd
  | 0x04 => statusWord e
  | 0x08 => e.result
  | 0x0C => e.dur
  | 0x10 => frame0 e
  | 0x14 => frame1 e
  | _ => 0

/-- A write of w to STATUS (R82): W1C on DONE and OVR, every other bit ignored. -/
def writeStatus (w : Word) (s : State) : State :=
  { s with
    eng.done := if w.getLsbD 1 then false else s.eng.done
    eng.ovr := if w.getLsbD 2 then false else s.eng.ovr }

/-- A write of w to CMD: the decoded command runs; a word that is no command is accepted as illegal (R80, R81, R107). -/
def writeCmd (w : Word) (s : State) : Host.Outcome State Fault Refusal :=
  match decode s.cfg.nLines w with
  | .ok i => exec i s
  | .error _ => accept w (fun s => s) s

/-- A legal write of w at offset off (R77). -/
def writeReg (off : Nat) (w : Word) (s : State) : Host.Outcome State Fault Refusal :=
  match off with
  | 0x00 => writeCmd w s
  | 0x04 => .next (writeStatus w s)
  | _ => .next s

/-- A host access (R71 to R73): outside the window it is not the engine's and nothing of the engine changes (log 8); a
window access other than the legal form gets a bus error. A model with WINDOW_UNCACHED false is refused (I13, log 5); in
which order a program's accesses are issued is no matter of the engine (R85). -/
def hostAccess (addr size : Nat) (kind : AccessKind) (s : State) : Host.Outcome State Fault Refusal :=
  if inWindow s.cfg addr then
    if !s.cfg.windowUncached then .refused .windowCached
    else if accessLegal s.cfg addr size then
      match kind with
      | .read => .next (s.replyData addr (readReg s.eng (addr - s.cfg.base)))
      | .write w => writeReg (addr - s.cfg.base) w s
    else .next (s.raiseBusError addr)
  else .next s

end Sys2Proof.Machine
end

