-- ==== Sys2Proof/Machine/Sequencer.lean ====
section
/-! DEFINITION. One tick of the sequencer (`40_timed_wait.md` R130): nothing while idle, else one evaluation of PHASE. -/

namespace Sys2Proof.Machine

/-- on tick (R130), with the levels sampled at this tick. The levels are those before the tick's own actions (R132). -/
def tick (levels : Levels) (s : State) : Host.Outcome State Fault Refusal :=
  if s.eng.busy then
    match s.eng.phase with
    | .idle => .fault .busyWithoutPhase
    | .wlWait => .next (tickWlWait levels s)
    | .pmRise => .next (tickPmRise levels s)
    | .pmHold => .next (tickPmHold levels s)
    | .dhWakeLow => .next (tickDhWakeLow s)
    | .dhWakeHigh => .next (tickDhWakeHigh s)
    | .dhHs1 => .next (tickDhHs1 levels s)
    | .dhHs2 => .next (tickDhHs2 levels s)
    | .dhHs3 => .next (tickDhHs3 levels s)
    | .dhBitRise => .next (tickDhBitRise levels s)
    | .dhBitHold => .next (tickDhBitHold levels s)
    | .ecTrigLow => .next (tickEcTrigLow s)
    | .ecTrigHigh => .next (tickEcTrigHigh s)
    | .ecRise => .next (tickEcRise levels s)
    | .ecHold => .next (tickEcHold levels s)
  else .next s

end Sys2Proof.Machine
end

