-- ==== Sys2Proof/Machine/Step.lean ====
section
/-! DEFINITION. One step of the machine: the next event of `State.inputs`, or a tick with free levels where there is none
(`00_scope.md` R6, `40_timed_wait.md` R131). -/

namespace Sys2Proof.Machine

/-- One event performed on a state it has been taken from (R131). -/
def perform (e : Event) (s : State) : Host.Outcome State Fault Refusal :=
  match e with
  | .access addr size kind => hostAccess addr size kind s
  | .tick levels => tick levels s
  | .reset => .next s.hardReset

/-- One step. A configuration that breaks R8 to R11 is refused (R11, log 4). -/
def step (s : State) : Host.Outcome State Fault Refusal :=
  if s.cfg.legal then
    match s.inputs with
    | e :: rest => perform e { s with inputs := rest }
    | [] => tick (Config.draw s.drawNo) { s with drawNo := s.drawNo + 1 }
  else .refused .illegalConfiguration

/-- s idle, with the host's write of the command word w to CMD as the next event (log 17). -/
def State.withFetchWord (s : State) (nbits w : Nat) : State :=
  { s with
    eng.busy := false
    inputs := .access s.cfg.base 4 (.write (BitVec.ofNat 32 (w % 2 ^ nbits))) :: s.inputs }

end Sys2Proof.Machine
end

