-- ==== Sys2Proof/Machine/Platform.lean ====
section
/-! DEFINITION. What the platform's open parameters say, beside the engine: HOST_ORDERED_IO, the order in which the host's
accesses are issued (`20_memory.md` R85, R86), and LINE_ROUTING, the wiring of lines to pins (`70_reset_and_hazards.md`
R254). No rule of the engine reads either (R85, I14). -/

namespace Sys2Proof.Machine

/-! ## The order of accesses -/

/-- HOST_ORDERED_IO (D29): the accesses a program makes in the order `program` may be issued in the order `issued`: the same
where it is true; where it is false any order (I12, log 5). The engine performs them as issued (R85). -/
def mayIssue (c : Config) (program issued : List Event) : Prop :=
  if c.hostOrderedIo then issued = program else issued.Perm program

/-! ## Pins -/

/-- The pin a line is wired to, where it is (R254 (1), D44). -/
def pinOf (c : Config) (l : Line) : Option Pin := c.lineRouting[l.toNat]

/-- The line of a line event (R18). -/
def eventLine : LineEvent → Line
  | .drive l _ => l
  | .release l _ => l

/-- The line events that reach a pin, each with its pin, oldest first (R254 (1), log 28). -/
def State.pinEvents (s : State) : List (Pin × LineEvent) :=
  s.lineEvents.filterMap (fun e => (pinOf s.cfg (eventLine e)).map (fun p => (p, e)))

/-- The requests the engine makes of a pin: those of the lines wired to it (R50, R254 (1)). -/
def State.pinRequests (s : State) (p : Pin) : List LineReq :=
  ((List.range s.cfg.nLines).map (BitVec.ofNat 5)).filterMap
    (fun l => if pinOf s.cfg l = some p then some s.eng.lines[l.toNat] else none)

/-- The samples of a tick where pin p is at level pins p: a wired line samples its pin; one with no pin samples what
`unwired` says, which is free (R51, R136, log 28). -/
def levelsOfPins (c : Config) (pins : Pin → Level) (unwired : Levels) : Levels :=
  Vector.ofFn (fun l => match c.lineRouting[l] with
    | some p => pins p
    | none => unwired[l])

end Sys2Proof.Machine
end

