-- ==== Sys2Proof/Safety.lean ====
section
/-! DEFINITION. What counts as a safe run, in the terms claims use: the invariants of `10_state.md` R58 and what makes them
inductive, the outcome record of `60_exceptions.md` R223, line ownership (`70_reset_and_hazards.md` R257), runs of ticks
under given samples (`40_timed_wait.md` R136), and the latency table R262. -/

namespace Sys2Proof.Machine

/-! ## The phases as R34 lists them -/

/-- The kind column of R34. -/
inductive PhaseKind where
  | none
  | wait
  | delay
  deriving DecidableEq, Repr

/-- The kind of a phase (R34). -/
def phaseKind : Phase → PhaseKind
  | .idle => .none
  | .wlWait => .wait
  | .pmRise => .wait
  | .pmHold => .wait
  | .dhWakeLow => .delay
  | .dhWakeHigh => .delay
  | .dhHs1 => .wait
  | .dhHs2 => .wait
  | .dhHs3 => .wait
  | .dhBitRise => .wait
  | .dhBitHold => .wait
  | .ecTrigLow => .delay
  | .ecTrigHigh => .delay
  | .ecRise => .wait
  | .ecHold => .wait

/-- The opcode of the command a phase belongs to (R34, R106); 0, which is no command's, for IDLE. -/
def phaseOp : Phase → BitVec 4
  | .idle => 0
  | .wlWait => 1
  | .pmRise => 2
  | .pmHold => 2
  | .dhWakeLow => 3
  | .dhWakeHigh => 3
  | .dhHs1 => 3
  | .dhHs2 => 3
  | .dhHs3 => 3
  | .dhBitRise => 3
  | .dhBitHold => 3
  | .ecTrigLow => 4
  | .ecTrigHigh => 4
  | .ecRise => 4
  | .ecHold => 4

/-- The length of a delay phase (R134, R162, R163, R193, R194); 0, which is no delay's, for the others. -/
def delayLength : Phase → Nat
  | .dhWakeLow => wakeLowTicks
  | .dhWakeHigh => wakeHighTicks
  | .ecTrigLow => trigPreLowTicks
  | .ecTrigHigh => trigHighTicks
  | .idle => 0
  | .wlWait => 0
  | .pmRise => 0
  | .pmHold => 0
  | .dhHs1 => 0
  | .dhHs2 => 0
  | .dhHs3 => 0
  | .dhBitRise => 0
  | .dhBitHold => 0
  | .ecRise => 0
  | .ecHold => 0

/-- The hold phases of a pulse measurement (R137). -/
def holdPhase : Phase → Bool
  | .pmHold => true
  | .dhBitHold => true
  | .ecHold => true
  | .idle => false
  | .wlWait => false
  | .pmRise => false
  | .dhWakeLow => false
  | .dhWakeHigh => false
  | .dhHs1 => false
  | .dhHs2 => false
  | .dhHs3 => false
  | .dhBitRise => false
  | .ecTrigLow => false
  | .ecTrigHigh => false
  | .ecRise => false

/-! ## Invariants -/

/-- The invariants R58 states of every reachable state. PHASE = 15 is not representable (log 11). -/
structure StatedInv (e : Engine) : Prop where
  busy_record : e.busy = true → e.done = false ∧ e.res = .none ∧ e.phase ≠ .idle
  done_record : e.busy = false → e.done = true → e.res ≠ .none
  bitcnt_bound : e.bitcnt.toNat ≤ 40
  bitcnt_command : 0 < e.bitcnt.toNat → curOp e = 3
  wait_count : e.busy = true → phaseKind e.phase = .wait → curUnb e = false → e.cnt.toNat ≤ (curTmo e).toNat

/-- What the sequencer keeps besides R58, and with it makes R58 inductive: the running command is legal and owns its
phase, a full frame is never running, RESULT is 0 while busy (R91), a delay has not passed its length (R134), a hold phase
counts on from its rise (R137, R146), CUR.IDX selects the running ECHO's entry (R56), SR holds no more bits than BITCNT
says (R172), and no entry that is no line was ever requested (R50). -/
structure SequencerInv (c : Config) (e : Engine) : Prop where
  busy_legal : e.busy = true → legalWord c.nLines e.cmd = true
  busy_phase : e.busy = true → phaseOp e.phase = curOp e
  busy_bitcnt : e.busy = true → e.bitcnt.toNat < frameBits
  busy_result : e.busy = true → e.result = 0
  delay_count : e.busy = true → phaseKind e.phase = .delay → e.cnt.toNat < delayLength e.phase
  hold_count : e.busy = true → holdPhase e.phase = true →
    e.rise.toNat < e.cnt.toNat ∨ (e.rise = 0xFFFFFFFF ∧ e.cnt = 0xFFFFFFFF)
  echo_index : e.busy = true → curOp e = 4 → (echoEntry c e.curIdx).selcode = curSel e
  frame_bits : curOp e = 3 → legalWord c.nLines e.cmd = true → e.sr.toNat < 2 ^ e.bitcnt.toNat
  only_lines : ∀ l : Line, c.nLines ≤ l.toNat → e.lines[l.toNat] = LineReq.released

/-- The outcome record of R223 with the values the commands' rules give (R141, R143, R170, R172, R191, R197, R107): it
stands from a command's finish to the next acceptance or reset (R227). -/
structure RecordInv (c : Config) (e : Engine) : Prop where
  ok_waitlvl : e.res = .ok → curOp e = 1 → e.result = e.dur ∧ e.dur = e.cnt ∧ e.phase = .wlWait ∧ e.bitcnt = 0 ∧
    (curUnb e = false → e.dur.toNat ≤ (curTmo e).toNat)
  ok_pulse : e.res = .ok → curOp e = 2 → e.result = e.dur ∧ e.dur = e.cnt - e.rise ∧ e.phase = .pmHold ∧
    e.bitcnt = 0 ∧
    (curUnb e = false → 1 ≤ e.dur.toNat ∧ e.dur.toNat ≤ (curTmo e).toNat)
  ok_dhtread : e.res = .ok → curOp e = 3 → e.result = (selectField (curFld e) e.sr).zeroExtend 32 ∧
    e.dur = e.cnt - e.rise ∧ e.phase = .dhBitHold ∧ e.bitcnt = 40 ∧ (curChk e = true → checksumGood e.sr = true) ∧
    (curUnb e = false → 1 ≤ e.dur.toNat ∧ e.dur.toNat ≤ (curTmo e).toNat)
  ok_echo : e.res = .ok → curOp e = 4 → e.result.toNat = 17 * e.dur.toNat ∧ e.dur = e.cnt - e.rise ∧
    e.phase = .ecHold ∧ e.bitcnt = 0 ∧ 1 ≤ e.dur.toNat ∧ e.dur.toNat ≤ (curTmo e).toNat
  ok_legal : e.res = .ok → legalWord c.nLines e.cmd = true
  timeout : e.res = .timeout → e.result = 0xFFFFFFFE ∧ e.dur = curTmo e ∧ curUnb e = false ∧
    phaseKind e.phase = .wait ∧ phaseOp e.phase = curOp e ∧ e.bitcnt.toNat < frameBits ∧
    legalWord c.nLines e.cmd = true
  checksum : e.res = .checksum → curOp e = 3 ∧ curChk e = true ∧ checksumGood e.sr = false ∧
    e.result = (selectField (curFld e) e.sr).zeroExtend 32 ∧ e.dur = e.cnt - e.rise ∧ e.phase = .dhBitHold ∧
    e.bitcnt = 40 ∧ (curUnb e = false → 1 ≤ e.dur.toNat ∧ e.dur.toNat ≤ (curTmo e).toNat) ∧
    legalWord c.nLines e.cmd = true
  unsupported : e.res = .unsupported → e.result = 0xFFFFFFFF ∧ e.dur = 0 ∧ e.phase = .idle ∧ e.bitcnt = 0 ∧
    curOp e = 4 ∧ lookupSel c (curSel e) = none ∧ legalWord c.nLines e.cmd = true
  illegal : e.res = .illegal → e.result = 0xFFFFFFFD ∧ e.dur = 0 ∧ e.phase = .idle ∧ e.bitcnt = 0 ∧
    legalWord c.nLines e.cmd = false

/-- The invariant of the machine under a legal configuration. -/
structure State.Inv (s : State) : Prop where
  config : s.cfg.legal = true
  stated : StatedInv s.eng
  sequencer : SequencerInv s.cfg s.eng

/-- The premises of a claim about issued accesses: a configuration R8 to R11 allow, with WINDOW_UNCACHED (R89, D41). A
claim about a program's accesses takes HOST_ORDERED_IO too, through `mayIssue` (R85, D29). -/
def State.covered (s : State) : Bool := s.cfg.legal && s.cfg.windowUncached

/-- The level a wait phase waits for (R34, R133, R137); the value for the other phases is not used. -/
def awaited (e : Engine) : Level :=
  match e.phase with
  | .wlWait => curLvl e
  | .pmRise => curLvl e
  | .pmHold => !curLvl e
  | .dhHs1 => false
  | .dhHs2 => true
  | .dhHs3 => false
  | .dhBitRise => true
  | .dhBitHold => false
  | .ecRise => true
  | .ecHold => false
  | .idle => false
  | .dhWakeLow => false
  | .dhWakeHigh => false
  | .ecTrigLow => false
  | .ecTrigHigh => false

/-! ## Host accesses -/

/-- A 32-bit host write of w at offset off of the window (R72). -/
def hostWrite (c : Config) (off : Nat) (w : Word) : Event := .access (c.base + off) 4 (.write w)

/-- A 32-bit host read at offset off of the window (R72). -/
def hostRead (c : Config) (off : Nat) : Event := .access (c.base + off) 4 .read

/-- The offsets of the window with the value a read of each returns (R78). -/
def registerTable (e : Engine) : List (Nat × Word) :=
  [(0x00, e.cmd), (0x04, statusWord e), (0x08, e.result), (0x0C, e.dur), (0x10, e.sr.extractLsb' 8 32),
   (0x14, (e.sr.extractLsb' 0 8).zeroExtend 32), (0x18, 0), (0x1C, 0)]

/-! ## Lines -/

/-- The lines a command uses and owns while it runs (R257). -/
def usesLine (c : Config) (i : Instr) (l : Line) : Prop :=
  match i with
  | .waitlvl line _ _ _ => l = line
  | .pulse line _ _ _ => l = line
  | .dhtread line _ _ _ _ => l = line
  | .echo sel _ => ∃ k : Fin 3, (echoEntry c k).selcode = sel ∧
      (l = (echoEntry c k).trig ∨ l = (echoEntry c k).echol ∨ (k = c.auxEntry ∧ l = c.auxLine))

/-- R254 (1): the platform has wired every line a command uses to a pin. -/
def commandRouted (c : Config) (i : Instr) : Prop := ∀ l, usesLine c i l → (pinOf c l).isSome = true

/-- The line events of an ECHO's setup for entry i, in the order of R192. -/
def setupEvents (c : Config) (i : Fin 3) : List LineEvent :=
  (if i = c.auxEntry then [.drive c.auxLine true] else []) ++ [.drive (echoEntry c i).trig false] ++
    (if (echoEntry c i).echol = (echoEntry c i).trig then [] else [.release (echoEntry c i).echol .none])

/-- The line events of an ECHO's trigger pulse for entry i: R193, then R194. -/
def triggerEvents (c : Config) (i : Fin 3) : List LineEvent :=
  [.drive (echoEntry c i).trig true, .drive (echoEntry c i).trig false] ++
    (if (echoEntry c i).echol = (echoEntry c i).trig then [.release (echoEntry c i).echol .none] else [])

/-- What a line event says a line's request becomes (R18). -/
def applyLineEvent (lines : Vector LineReq 32) : LineEvent → Vector LineReq 32
  | .drive l v => lines.set l.toNat { lines[l.toNat] with oe := true, out := v }
  | .release l p => lines.set l.toNat { lines[l.toNat] with oe := false, pull := p }

/-! ## What the host reads -/

/-- A command is complete: STATUS shows BUSY = 0 and DONE = 1 (R84). -/
def complete (e : Engine) : Bool := !e.busy && e.done

/-- How a host reads an ECHO's outcome, RES first (R203). -/
inductive EchoReading where
  /-- OK: the distance in thousandths of a centimetre. -/
  | distance (thousandths : Nat)
  /-- TIMEOUT: no reading. -/
  | noReading
  /-- UNSUPPORTED: the selector is not configured. -/
  | notConfigured
  /-- ILLEGAL: the word was malformed. -/
  | malformed
  /-- Any other code: no ECHO has ended. -/
  | noOutcome
  deriving DecidableEq, Repr

/-- The host's reading of an ECHO (R203). -/
def echoReading (e : Engine) : EchoReading :=
  match e.res with
  | .ok => .distance e.result.toNat
  | .timeout => .noReading
  | .unsupported => .notConfigured
  | .illegal => .malformed
  | .none => .noOutcome
  | .checksum => .noOutcome

/-! ## Runs of ticks -/

/-- s with a tick of the given levels as its next event. -/
def State.feed (s : State) (levels : Levels) : State := { s with inputs := .tick levels :: s.inputs }

/-- One step of the machine for each tick of the given levels, in their order (R130, R136). -/
def runTicks : List Levels → State → Host.Outcome State Fault Refusal
  | [], s => .next s
  | levels :: rest, s =>
    match step (s.feed levels) with
    | .next t => runTicks rest t
    | .fault r => .fault r
    | .refused r => .refused r

/-- The samples of one line at the ticks of ls. -/
def samplesOf (ls : List Levels) (l : Line) : List Level := ls.map (fun lv => sample lv l)

/-- A line that first reaches level v at its n-th sample, counted from 0. -/
def waitWave (v : Level) (n : Nat) : List Level := List.replicate n (!v) ++ [v]

/-- A pulse of level v seen in d consecutive samples after r samples at the other level, with the sample that ends it (R137). -/
def pulseWave (v : Level) (r d : Nat) : List Level := List.replicate r (!v) ++ List.replicate d v ++ [!v]

/-- The bits of a frame as the numbers of low and high samples of their bit-slots, on the wire (R165, R166). -/
def frameWave (bits : List (Nat × Nat)) : List Level := bits.flatMap (fun b => pulseWave true b.1 b.2)

/-- The bit a high duration of d samples encodes (R167). -/
def bitOf (d : Nat) : Bool := decide (40 < d)

/-- The 40-bit frame of bit-slots, first received bit highest (R168). -/
def frameOf (bits : List (Nat × Nat)) : BitVec 40 := bits.foldl (fun sr b => shiftIn sr (bitOf b.2)) 0

/-! ## Latencies (R262) -/

/-- The number of ticks after acceptance by which a bounded command has finished: the latest-finish column of R262, a tick
a + k being the (k+1)-th. -/
def latestFinish : Instr → Nat
  | .waitlvl _ _ _ tmo => tmo.toNat + 1
  | .pulse _ _ _ tmo => tmo.toNat + 1
  | .dhtread _ _ _ _ tmo => 18040 + 43 * (tmo.toNat + 1)
  | .echo _ tmo => 12 + tmo.toNat + 1

/-- The least number of ticks after acceptance that gives RES = OK or CHECKSUM: the earliest-finish column of R262. -/
def earliestResult : Instr → Nat
  | .waitlvl _ _ _ _ => 1
  | .pulse _ _ _ _ => 2
  | .dhtread _ _ _ _ _ => 18123
  | .echo _ _ => 14

/-- The command has no unbounded wait: UNB = 0, and every ECHO (R104, R133). -/
def boundedCommand : Instr → Bool
  | .waitlvl _ _ unb _ => !unb
  | .pulse _ _ unb _ => !unb
  | .dhtread _ unb _ _ _ => !unb
  | .echo _ _ => true

end Sys2Proof.Machine
end

