-- ==== Sys2Proof/Certificates/Slice0/Obligations.lean ====
section
/-! DEFINITION. The statements for the provers, each a rule of `spec/` about what a command, a host access, a tick or the
machine does. A statement holds for every legal configuration: `State.reset`'s EXCFG has no part in any but those about
`State.reset`. -/

open Sys2Proof Sys2Proof.Machine

/-! ## Encoding -/

/-- Every well-formed command is read back from its word with every operand (`30_encoding.md` R102 to R107). -/
def Obligations.DecodeEncodeRoundTrip : Prop :=
  ∀ (n : Nat) (i : Instr), i.wf n = true → decode n (encode i) = .ok i

/-- Each word that is a command is that command's one encoding (R102 to R104: every bit is OP, an operand or a 0). -/
def Obligations.EncodeDecodeRoundTrip : Prop :=
  ∀ (n : Nat) (w : Word) (i : Instr), decode n w = .ok i → encode i = w ∧ i.wf n = true

/-- The decoder gives a command exactly for the words R108's predicate calls legal (R108, R113). -/
def Obligations.DecoderMatchesLegality : Prop :=
  ∀ (n : Nat) (w : Word), (∃ i, decode n w = .ok i) ↔ legalWord n w = true

/-- Why a word is illegal, the three cases of R107 in the decoder's order. -/
def Obligations.IllegalWordReasons : Prop :=
  ∀ (n : Nat) (w : Word),
    (decode n w = .error .opcode ↔ (opField w = 0 ∨ 5 ≤ (opField w).toNat)) ∧
    (decode n w = .error .reservedBit ↔
      ((opField w = 1 ∨ opField w = 2) ∧ w.extractLsb' 16 5 ≠ 0) ∨
      (opField w = 3 ∧ (w.getLsbD 22 = true ∨ w.extractLsb' 16 3 ≠ 0)) ∨
      (opField w = 4 ∧ w.extractLsb' 16 4 ≠ 0)) ∧
    (decode n w = .error .lineRange ↔
      (((opField w = 1 ∨ opField w = 2) ∧ w.extractLsb' 16 5 = 0) ∨
        (opField w = 3 ∧ w.getLsbD 22 = false ∧ w.extractLsb' 16 3 = 0)) ∧ n ≤ (lineField w).toNat) ∧
    decode n w ≠ .error .truncated

/-- R106: no word matches two rows of the opcode map, and a word is legal exactly when it matches a row and passes that
row's line check. -/
def Obligations.OpcodeMapDisjointAndComplete : Prop :=
  ∀ (n : Nat) (w : Word),
    (∀ r1 ∈ opRows, ∀ r2 ∈ opRows, rowMatches r1 w = true → rowMatches r2 w = true → r1 = r2) ∧
    (legalWord n w = true ↔ ∃ r ∈ opRows, rowMatches r w = true ∧ (r.hasLine = true → (lineField w).toNat < n))

/-- Words of R112, written out there, decode to the commands they stand for under NLINES = 16 (and 32). -/
def Obligations.WorkedEncodingsDecode : Prop :=
  decode 16 0x11C001F4 = .ok (.waitlvl 3 true false 500) ∧
  decode 16 0x11A00000 = .ok (.waitlvl 3 false true 0) ∧
  decode 32 0x1FC0FFFF = .ok (.waitlvl 31 true false 65535) ∧
  decode 16 0x21C061A8 = .ok (.pulse 3 true false 25000) ∧
  decode 16 0x321800C8 = .ok (.dhtread 4 false true .temperature 200) ∧
  decode 16 0x32200000 = .ok (.dhtread 4 true false .humidity 0) ∧
  decode 16 0x401061A8 = .ok (.echo 1 25000) ∧
  decode 16 0x1840000A = .error .lineRange

/-! ## Steps and host accesses -/

/-- A step whose next event is the host's write of a command's word to CMD is that command's `exec`, on the state with the
event taken from the queue (R80, R88). `withFetchWord` puts such a write first on an idle engine. -/
def Obligations.StepRunsDecodedCommand : Prop :=
  (∀ (s : State) (rest : List Event) (w : Word) (i : Instr), s.covered = true →
    s.inputs = hostWrite s.cfg 0 w :: rest → decode s.cfg.nLines w = .ok i →
    step s = exec i { s with inputs := rest }) ∧
  (∀ (s : State) (w : Word) (i : Instr), s.covered = true → decode s.cfg.nLines w = .ok i →
    step (s.withFetchWord 32 w.toNat) = exec i { s with eng.busy := false })

/-- R80, R107, R140: an illegal word written while idle is stored and finishes at once as ILLEGAL, touching no line and not
SR, and never setting BUSY. -/
def Obligations.IllegalWordEndsAtAcceptance : Prop :=
  ∀ (s : State) (rest : List Event) (w : Word), s.covered = true → s.eng.busy = false →
    s.inputs = hostWrite s.cfg 0 w :: rest → legalWord s.cfg.nLines w = false →
    step s = .next { s with
      inputs := rest
      eng := { s.eng with
        cmd := w, busy := false, done := true, res := .illegal, phase := .idle, bitcnt := 0, result := 0xFFFFFFFD,
        dur := 0, cnt := 0, rise := 0 } }

/-- R81: a CMD write while BUSY = 1, of any word, sets OVR and changes nothing else; and so does every command's `exec`. -/
def Obligations.BusyCmdWriteIsDropped : Prop :=
  (∀ (s : State) (rest : List Event) (w : Word), s.covered = true → s.eng.busy = true →
    s.inputs = hostWrite s.cfg 0 w :: rest →
    step s = .next { s with inputs := rest, eng.ovr := true }) ∧
  (∀ (i : Instr) (s : State), s.cfg.legal = true → s.eng.busy = true → exec i s = .next { s with eng.ovr := true })

/-- R82: a STATUS write clears DONE where bit 1 is 1 and OVR where bit 2 is 1, and does nothing else. -/
def Obligations.StatusWriteClearsByOne : Prop :=
  ∀ (s : State) (rest : List Event) (w : Word), s.covered = true → s.inputs = hostWrite s.cfg 4 w :: rest →
    step s = .next { s with
      inputs := rest
      eng.done := if w.getLsbD 1 = true then false else s.eng.done
      eng.ovr := if w.getLsbD 2 = true then false else s.eng.ovr }

/-- R77, R83: writes to RESULT, DUR, FRAME0, FRAME1 and the reserved offsets change nothing and give no bus error. -/
def Obligations.OtherWritesAreIgnored : Prop :=
  ∀ (s : State) (rest : List Event) (off : Nat) (w : Word), s.covered = true →
    off ∈ [0x08, 0x0C, 0x10, 0x14, 0x18, 0x1C] → s.inputs = hostWrite s.cfg off w :: rest →
    step s = .next { s with inputs := rest }

/-- R76, R78: a legal read answers the register's value and changes nothing of the engine. R85: where a program makes an
access e and then a read, on a host with HOST_ORDERED_IO the machine performs e and then answers from the state e left. -/
def Obligations.ReadsReturnRegisters : Prop :=
  (∀ (s : State) (rest : List Event) (off : Nat) (v : Word), s.covered = true →
    (off, v) ∈ [(0x00, s.eng.cmd), (0x04, statusWord s.eng), (0x08, s.eng.result), (0x0C, s.eng.dur),
      (0x10, s.eng.sr.extractLsb' 8 32), (0x14, (s.eng.sr.extractLsb' 0 8).zeroExtend 32), (0x18, 0), (0x1C, 0)] →
    s.inputs = hostRead s.cfg off :: rest →
    step s = .next { s with inputs := rest, busLog := s.busLog ++ [.data (s.cfg.base + off) v] }) ∧
  (∀ (s t : State) (issued rest : List Event) (addr size off : Nat) (kind : AccessKind) (v : Word),
    s.covered = true → s.cfg.hostOrderedIo = true →
    mayIssue s.cfg [.access addr size kind, hostRead s.cfg off] issued → s.inputs = issued ++ rest →
    hostAccess addr size kind { s with inputs := hostRead s.cfg off :: rest } = .next t →
    (off, v) ∈ registerTable t.eng →
    step s = .next t ∧
    step t = .next { t with inputs := rest, busLog := t.busLog ++ [.data (s.cfg.base + off) v] })

/-- R36, R78: where each field stands in the STATUS word; bit 3 and bits 31:18 read 0. R222 and R34: the code of each
result, 0 to 5, and of each phase, 0 to 14. -/
def Obligations.StatusWordLayout : Prop :=
  (∀ e : Engine,
    (statusWord e).getLsbD 0 = e.busy ∧ (statusWord e).getLsbD 1 = e.done ∧ (statusWord e).getLsbD 2 = e.ovr ∧
    (statusWord e).getLsbD 3 = false ∧ (statusWord e).extractLsb' 4 4 = e.res.code ∧
    (statusWord e).extractLsb' 8 4 = e.phase.code ∧ (statusWord e).extractLsb' 12 6 = e.bitcnt ∧
    (statusWord e).extractLsb' 18 14 = 0) ∧
  ([ResCode.none, .ok, .timeout, .unsupported, .checksum, .illegal].map ResCode.code = [0, 1, 2, 3, 4, 5]) ∧
  ([Phase.idle, .wlWait, .pmRise, .pmHold, .dhWakeLow, .dhWakeHigh, .dhHs1, .dhHs2, .dhHs3, .dhBitRise, .dhBitHold,
    .ecTrigLow, .ecTrigHigh, .ecRise, .ecHold].map Phase.code = [0, 1, 2, 3, 4, 5, 6, 7, 8, 9, 10, 11, 12, 13, 14])

/-- R73: an access to the window that is not 4 bytes at a multiple of 4 gets a bus error, a read or a write, and changes
nothing of the engine. -/
def Obligations.MalformedAccessGetsBusError : Prop :=
  ∀ (s : State) (rest : List Event) (addr size : Nat) (kind : AccessKind), s.covered = true →
    s.cfg.base ≤ addr → addr < s.cfg.base + 0x20 → (size ≠ 4 ∨ (addr - s.cfg.base) % 4 ≠ 0) →
    s.inputs = .access addr size kind :: rest →
    step s = .next { s with inputs := rest, busLog := s.busLog ++ [.busError addr] }

/-- R229: a bus error, like every answer, stays recorded: a step only adds to the record. -/
def Obligations.BusErrorsAreNeverCleared : Prop :=
  ∀ s t : State, step s = .next t → ∃ new, t.busLog = s.busLog ++ new

/-- R71 and log 8: an access outside the window is no access to the engine. That the machine then goes on with nothing
recorded is the model's choice (log 8). -/
def Obligations.AccessOutsideWindowIsNotTheEngines : Prop :=
  ∀ (s : State) (rest : List Event) (addr size : Nat) (kind : AccessKind), s.cfg.legal = true →
    (addr < s.cfg.base ∨ s.cfg.base + 0x20 ≤ addr) → s.inputs = .access addr size kind :: rest →
    step s = .next { s with inputs := rest }

/-- R11, I11: an illegal configuration is refused, by every step and every command (log 4); I13: a window access is refused
where WINDOW_UNCACHED is false (log 5). -/
def Obligations.UncoveredConfigurationsAreRefused : Prop :=
  (∀ s : State, s.cfg.legal = false → step s = .refused .illegalConfiguration) ∧
  (∀ (i : Instr) (s : State), s.cfg.legal = false → exec i s = .refused .illegalConfiguration) ∧
  (∀ (s : State) (rest : List Event) (addr size : Nat) (kind : AccessKind), s.cfg.legal = true →
    s.cfg.windowUncached = false → s.cfg.base ≤ addr → addr < s.cfg.base + 0x20 →
    s.inputs = .access addr size kind :: rest →
    step s = .refused .windowCached)

/-! ## Acceptance of each command -/

/-- R80, R141: WAITLVL accepted while idle starts in WL_WAIT with CNT = 0, the outcome record cleared, and does no line
action; everything else is as before. -/
def Obligations.WaitlvlAcceptance : Prop :=
  ∀ (line : Line) (lvl : Level) (unb : Bool) (tmo : Timeout) (s : State), s.cfg.legal = true → s.eng.busy = false →
    line.toNat < s.cfg.nLines →
    exec (.waitlvl line lvl unb tmo) s = .next { s with
      eng := { s.eng with
        cmd := encode (.waitlvl line lvl unb tmo), busy := true, done := false, res := .none, phase := .wlWait,
        bitcnt := 0, result := 0, dur := 0, cnt := 0, rise := 0 } }

/-- R80, R143: PULSE accepted while idle starts in PM_RISE with CNT = 0, the outcome record cleared, and does no line
action; everything else is as before. -/
def Obligations.PulseAcceptance : Prop :=
  ∀ (line : Line) (lvl : Level) (unb : Bool) (tmo : Timeout) (s : State), s.cfg.legal = true → s.eng.busy = false →
    line.toNat < s.cfg.nLines →
    exec (.pulse line lvl unb tmo) s = .next { s with
      eng := { s.eng with
        cmd := encode (.pulse line lvl unb tmo), busy := true, done := false, res := .none, phase := .pmRise,
        bitcnt := 0, result := 0, dur := 0, cnt := 0, rise := 0 } }

/-- R80, R161: DHTREAD accepted while idle clears SR, drives its line low and starts in DH_WAKE_LOW; every other line and
everything else is as before. -/
def Obligations.DhtreadAcceptance : Prop :=
  ∀ (line : Line) (unb chk : Bool) (fld : DhtField) (tmo : Timeout) (s : State), s.cfg.legal = true →
    s.eng.busy = false → line.toNat < s.cfg.nLines →
    exec (.dhtread line unb chk fld tmo) s = .next { s with
      eng := { s.eng with
        cmd := encode (.dhtread line unb chk fld tmo), busy := true, done := false, res := .none, phase := .dhWakeLow,
        bitcnt := 0, result := 0, dur := 0, cnt := 0, rise := 0, sr := 0,
        lines := s.eng.lines.set line.toNat { s.eng.lines[line.toNat] with oe := true, out := false } }
      lineEvents := s.lineEvents ++ [.drive line false] }

/-- R80, R191, R192: ECHO with the selector of entry k, accepted while idle: CUR.IDX is k; the setup's line events happen in
their order; the trigger is driven low, a separate echo line is released with no pull, the aux entry's aux line is driven
high, and every other line and everything else is as before. -/
def Obligations.EchoAcceptance : Prop :=
  ∀ (sel : BitVec 8) (tmo : Timeout) (k : Fin 3) (s : State), s.cfg.legal = true → s.eng.busy = false →
    (echoEntry s.cfg k).selcode = sel →
    ∃ t, exec (.echo sel tmo) s = .next t ∧
      t.eng = { s.eng with
        cmd := encode (.echo sel tmo), busy := true, done := false, res := .none, phase := .ecTrigLow, bitcnt := 0,
        result := 0, dur := 0, cnt := 0, rise := 0, curIdx := k, lines := t.eng.lines } ∧
      t = { s with eng := t.eng, lineEvents := s.lineEvents ++ setupEvents s.cfg k } ∧
      (∀ l : Line, l ≠ (echoEntry s.cfg k).trig → l ≠ (echoEntry s.cfg k).echol →
        (k = s.cfg.auxEntry → l ≠ s.cfg.auxLine) → t.eng.lines[l.toNat] = s.eng.lines[l.toNat]) ∧
      (t.eng.lines[(echoEntry s.cfg k).trig.toNat].oe = true ∧
        t.eng.lines[(echoEntry s.cfg k).trig.toNat].out = false) ∧
      ((echoEntry s.cfg k).echol ≠ (echoEntry s.cfg k).trig →
        t.eng.lines[(echoEntry s.cfg k).echol.toNat].oe = false ∧
        t.eng.lines[(echoEntry s.cfg k).echol.toNat].pull = .none) ∧
      (k = s.cfg.auxEntry → t.eng.lines[s.cfg.auxLine.toNat].oe = true ∧ t.eng.lines[s.cfg.auxLine.toNat].out = true)

/-- R80, R140, R191: ECHO with a selector of no entry, accepted while idle, finishes at once as UNSUPPORTED: BUSY stays 0,
no line action, SR and CUR.IDX as before. -/
def Obligations.EchoUnsupportedSelector : Prop :=
  ∀ (sel : BitVec 8) (tmo : Timeout) (s : State), s.cfg.legal = true → s.eng.busy = false →
    (∀ k : Fin 3, (echoEntry s.cfg k).selcode ≠ sel) →
    exec (.echo sel tmo) s = .next { s with
      eng := { s.eng with
        cmd := encode (.echo sel tmo), busy := false, done := true, res := .unsupported, phase := .idle, bitcnt := 0,
        result := 0xFFFFFFFF, dur := 0, cnt := 0, rise := 0 } }

/-- R107 (c), R141, R143, R160: `exec` of a command with LINE >= NLINES finishes as ILLEGAL, like its word. -/
def Obligations.IllFormedCommandIsIllegal : Prop :=
  ∀ (i : Instr) (s : State), s.cfg.legal = true → s.eng.busy = false → i.wf s.cfg.nLines = false →
    exec i s = .next { s with
      eng := { s.eng with
        cmd := encode i, busy := false, done := true, res := .illegal, phase := .idle, bitcnt := 0,
        result := 0xFFFFFFFD, dur := 0, cnt := 0, rise := 0 } }

/-- The frame of the four commands at acceptance, for every state and form: nothing outside the engine but line events; OVR
only ever set, by a drop; SR only by DHTREAD; CUR.IDX only by ECHO; no request of a line the command does not use; every
new line event on a line it uses (R80, R81, R31, R257). -/
def Obligations.CommandFrame : Prop :=
  ∀ (i : Instr) (s t : State), exec i s = .next t →
    t.cfg = s.cfg ∧ t.inputs = s.inputs ∧ t.drawNo = s.drawNo ∧ t.busLog = s.busLog ∧
    (t.eng.ovr = s.eng.ovr ∨ (s.eng.busy = true ∧ t.eng.ovr = true)) ∧
    (t.eng.sr = s.eng.sr ∨ ∃ line unb chk fld tmo, i = .dhtread line unb chk fld tmo) ∧
    (t.eng.curIdx = s.eng.curIdx ∨ ∃ sel tmo, i = .echo sel tmo) ∧
    (∀ l : Line, ¬ usesLine s.cfg i l → t.eng.lines[l.toNat] = s.eng.lines[l.toNat]) ∧
    (∃ evs, t.lineEvents = s.lineEvents ++ evs ∧ ∀ e ∈ evs, usesLine s.cfg i (eventLine e)) ∧
    ((∃ line lvl unb tmo, i = .waitlvl line lvl unb tmo ∨ i = .pulse line lvl unb tmo) →
      t.eng.lines = s.eng.lines ∧ t.lineEvents = s.lineEvents)

/-! ## Ticks -/

/-- R130: with BUSY = 0 a tick changes nothing; a tick that no event supplies draws one free sample (log 2). -/
def Obligations.IdleTickChangesNothing : Prop :=
  (∀ (levels : Levels) (s : State), s.eng.busy = false → tick levels s = .next s) ∧
  (∀ s : State, s.cfg.legal = true → s.eng.busy = false → s.inputs = [] →
    step s = .next { s with drawNo := s.drawNo + 1 })

/-- R141: a tick in WL_WAIT. In a bounded wait CNT <= TMO, as R58 states of every reachable state. -/
def Obligations.WaitlvlTick : Prop :=
  ∀ (levels : Levels) (s : State), s.eng.busy = true → s.eng.phase = .wlWait →
    (curUnb s.eng = false → s.eng.cnt.toNat ≤ (curTmo s.eng).toNat) →
    tick levels s = .next
      (if sample levels (curLine s.eng) = curLvl s.eng then
        { s with eng := { s.eng with
          busy := false, done := true, res := .ok, result := s.eng.cnt, dur := s.eng.cnt } }
      else if curUnb s.eng = false ∧ (curTmo s.eng).toNat ≤ s.eng.cnt.toNat then
        { s with eng := { s.eng with
          busy := false, done := true, res := .timeout, result := 0xFFFFFFFE, dur := s.eng.cnt } }
      else { s with eng.cnt := sat32 (s.eng.cnt.toNat + 1) })

/-- R137, R143: a tick in PM_RISE and a tick in PM_HOLD (there, in a bounded wait, CNT <= TMO as R58 states). -/
def Obligations.PulseTicks : Prop :=
  (∀ (levels : Levels) (s : State), s.eng.busy = true → s.eng.phase = .pmRise →
    tick levels s = .next
      (if sample levels (curLine s.eng) = curLvl s.eng ∧
          (curUnb s.eng = true ∨ s.eng.cnt.toNat < (curTmo s.eng).toNat) then
        { s with eng := { s.eng with
          rise := s.eng.cnt, phase := .pmHold, cnt := sat32 (s.eng.cnt.toNat + 1) } }
      else if curUnb s.eng = false ∧ (curTmo s.eng).toNat ≤ s.eng.cnt.toNat then
        { s with eng := { s.eng with
          busy := false, done := true, res := .timeout, result := 0xFFFFFFFE, dur := s.eng.cnt } }
      else { s with eng.cnt := sat32 (s.eng.cnt.toNat + 1) })) ∧
  (∀ (levels : Levels) (s : State), s.eng.busy = true → s.eng.phase = .pmHold →
    (curUnb s.eng = false → s.eng.cnt.toNat ≤ (curTmo s.eng).toNat) →
    tick levels s = .next
      (if sample levels (curLine s.eng) ≠ curLvl s.eng then
        { s with eng := { s.eng with
          busy := false, done := true, res := .ok, result := s.eng.cnt - s.eng.rise,
          dur := s.eng.cnt - s.eng.rise } }
      else if curUnb s.eng = false ∧ (curTmo s.eng).toNat ≤ s.eng.cnt.toNat then
        { s with eng := { s.eng with
          busy := false, done := true, res := .timeout, result := 0xFFFFFFFE, dur := s.eng.cnt } }
      else { s with eng.cnt := sat32 (s.eng.cnt.toNat + 1) }))

/-- R134, R162, R163, R193, R194: a tick in each of the four delay phases, whatever the samples: at the last tick of the
delay its line action and the next phase with CNT = 0, else the count alone. CNT is below its saturation, as every state of
a delay is (R146). -/
def Obligations.DelayTicks : Prop :=
  ∀ (levels : Levels) (s : State), s.eng.busy = true → s.eng.cnt.toNat < 4294967295 →
    (s.eng.phase = .dhWakeLow → tick levels s = .next
      (if s.eng.cnt.toNat + 1 = 18000 then (s.drive (curLine s.eng) true).enterPhase .dhWakeHigh
       else { s with eng.cnt := s.eng.cnt + 1 })) ∧
    (s.eng.phase = .dhWakeHigh → tick levels s = .next
      (if s.eng.cnt.toNat + 1 = 40 then (s.release (curLine s.eng) .up).enterPhase .dhHs1
       else { s with eng.cnt := s.eng.cnt + 1 })) ∧
    (s.eng.phase = .ecTrigLow → tick levels s = .next
      (if s.eng.cnt.toNat + 1 = 2 then (s.drive (curTrig s.cfg s.eng) true).enterPhase .ecTrigHigh
       else { s with eng.cnt := s.eng.cnt + 1 })) ∧
    (s.eng.phase = .ecTrigHigh → tick levels s = .next
      (if s.eng.cnt.toNat + 1 = 10 then
        (if curEchol s.cfg s.eng = curTrig s.cfg s.eng then
          (s.drive (curTrig s.cfg s.eng) false).release (curEchol s.cfg s.eng) .none
         else s.drive (curTrig s.cfg s.eng) false).enterPhase .ecRise
       else { s with eng.cnt := s.eng.cnt + 1 }))

/-- R18: what a drive and a release do: the one line's request, and one line event; LPULL is kept by a drive and LOUT by a
release (R50). On a line LINE_ROUTING wires to a pin the event reaches that pin (R254 (1)); on another it reaches none
(log 28). -/
def Obligations.LinePrimitives : Prop :=
  ∀ (s : State) (l k : Line) (v : Level) (p : Pull),
    (s.drive l v).lineEvents = s.lineEvents ++ [.drive l v] ∧
    (s.release l p).lineEvents = s.lineEvents ++ [.release l p] ∧
    (s.drive l v).eng.lines[k.toNat] =
      (if k = l then { oe := true, out := v, pull := s.eng.lines[k.toNat].pull } else s.eng.lines[k.toNat]) ∧
    (s.release l p).eng.lines[k.toNat] =
      (if k = l then { oe := false, out := s.eng.lines[k.toNat].out, pull := p } else s.eng.lines[k.toNat]) ∧
    (s.drive l v).eng = { s.eng with lines := (s.drive l v).eng.lines } ∧
    (s.release l p).eng = { s.eng with lines := (s.release l p).eng.lines } ∧
    (∀ pin, s.cfg.lineRouting[l.toNat] = some pin →
      (s.drive l v).pinEvents = s.pinEvents ++ [(pin, .drive l v)] ∧
      (s.release l p).pinEvents = s.pinEvents ++ [(pin, .release l p)]) ∧
    (s.cfg.lineRouting[l.toNat] = none →
      (s.drive l v).pinEvents = s.pinEvents ∧ (s.release l p).pinEvents = s.pinEvents)

/-- R164: a tick in DH_HS1, DH_HS2 or DH_HS3: the levels 0, 1, 0 in turn, each with its own zero point. In a bounded wait
CNT <= TMO, as R58 states. -/
def Obligations.HandshakeTicks : Prop :=
  ∀ (levels : Levels) (s : State) (p next : Phase) (v : Level),
    (p, v, next) ∈ [(Phase.dhHs1, false, Phase.dhHs2), (.dhHs2, true, .dhHs3), (.dhHs3, false, .dhBitRise)] →
    s.eng.busy = true → s.eng.phase = p →
    (curUnb s.eng = false → s.eng.cnt.toNat ≤ (curTmo s.eng).toNat) →
    tick levels s = .next
      (if sample levels (curLine s.eng) = v then { s with eng := { s.eng with phase := next, cnt := 0 } }
      else if curUnb s.eng = false ∧ (curTmo s.eng).toNat ≤ s.eng.cnt.toNat then
        { s with eng := { s.eng with
          busy := false, done := true, res := .timeout, result := 0xFFFFFFFE, dur := s.eng.cnt } }
      else { s with eng.cnt := sat32 (s.eng.cnt.toNat + 1) })

/-- R165: a tick in DH_BIT_RISE. -/
def Obligations.BitRiseTick : Prop :=
  ∀ (levels : Levels) (s : State), s.eng.busy = true → s.eng.phase = .dhBitRise →
    tick levels s = .next
      (if sample levels (curLine s.eng) = true ∧
          (curUnb s.eng = true ∨ s.eng.cnt.toNat < (curTmo s.eng).toNat) then
        { s with eng := { s.eng with
          rise := s.eng.cnt, phase := .dhBitHold, cnt := sat32 (s.eng.cnt.toNat + 1) } }
      else if curUnb s.eng = false ∧ (curTmo s.eng).toNat ≤ s.eng.cnt.toNat then
        { s with eng := { s.eng with
          busy := false, done := true, res := .timeout, result := 0xFFFFFFFE, dur := s.eng.cnt } }
      else { s with eng.cnt := sat32 (s.eng.cnt.toNat + 1) })

/-- R166, R167, R170: a tick in DH_BIT_HOLD (in a bounded wait CNT <= TMO, as R58 states): at the end of the high part the
bit is shifted in, counted and its duration kept; an earlier bit goes on to the next one. The 40th extracts: RESULT is
SR[39:32] for FLD = 0 and SR[23:16] for FLD = 1, and the code is CHECKSUM exactly where CHK = 1 and SR[7:0] is not the sum of
the four data bytes mod 256 (a formula the spec has from general knowledge: R171, log 21). -/
def Obligations.BitHoldTick : Prop :=
  ∀ (levels : Levels) (s : State) (d : Word) (sr : BitVec 40), s.eng.busy = true → s.eng.phase = .dhBitHold →
    (curUnb s.eng = false → s.eng.cnt.toNat ≤ (curTmo s.eng).toNat) →
    d = s.eng.cnt - s.eng.rise → sr = (s.eng.sr <<< 1) ||| (if 40 < d.toNat then 1 else 0) →
    tick levels s = .next
      (if sample levels (curLine s.eng) = false then
        (if (s.eng.bitcnt + 1).toNat = 40 then
          { s with eng := { s.eng with
            sr := sr, bitcnt := s.eng.bitcnt + 1, dur := d, busy := false, done := true,
            result := (if s.eng.cmd.getLsbD 19 = false then sr.extractLsb' 32 8 else sr.extractLsb' 16 8).zeroExtend 32,
            res := if s.eng.cmd.getLsbD 20 = true ∧ (sr.extractLsb' 0 8).toNat ≠
                ((sr.extractLsb' 32 8).toNat + (sr.extractLsb' 24 8).toNat + (sr.extractLsb' 16 8).toNat +
                  (sr.extractLsb' 8 8).toNat) % 256
              then .checksum else .ok } }
        else
          { s with eng := { s.eng with
            sr := sr, bitcnt := s.eng.bitcnt + 1, dur := d, phase := .dhBitRise, cnt := 0 } })
      else if curUnb s.eng = false ∧ (curTmo s.eng).toNat ≤ s.eng.cnt.toNat then
        { s with eng := { s.eng with
          busy := false, done := true, res := .timeout, result := 0xFFFFFFFE, dur := s.eng.cnt } }
      else { s with eng.cnt := sat32 (s.eng.cnt.toNat + 1) })

/-- R195, R196, R197: a tick in EC_RISE and a tick in EC_HOLD, always bounded (in EC_HOLD CNT <= TMO, as R58 states). -/
def Obligations.EchoTicks : Prop :=
  (∀ (levels : Levels) (s : State), s.eng.busy = true → s.eng.phase = .ecRise →
    tick levels s = .next
      (if sample levels (curEchol s.cfg s.eng) = true ∧ s.eng.cnt.toNat < (curTmo s.eng).toNat then
        { s with eng := { s.eng with
          rise := s.eng.cnt, phase := .ecHold, cnt := sat32 (s.eng.cnt.toNat + 1) } }
      else if (curTmo s.eng).toNat ≤ s.eng.cnt.toNat then
        { s with eng := { s.eng with
          busy := false, done := true, res := .timeout, result := 0xFFFFFFFE, dur := s.eng.cnt } }
      else { s with eng.cnt := sat32 (s.eng.cnt.toNat + 1) })) ∧
  (∀ (levels : Levels) (s : State), s.eng.busy = true → s.eng.phase = .ecHold →
    s.eng.cnt.toNat ≤ (curTmo s.eng).toNat →
    tick levels s = .next
      (if sample levels (curEchol s.cfg s.eng) = false then
        { s with eng := { s.eng with
          busy := false, done := true, res := .ok, dur := s.eng.cnt - s.eng.rise,
          result := distance (s.eng.cnt - s.eng.rise) } }
      else if (curTmo s.eng).toNat ≤ s.eng.cnt.toNat then
        { s with eng := { s.eng with
          busy := false, done := true, res := .timeout, result := 0xFFFFFFFE, dur := s.eng.cnt } }
      else { s with eng.cnt := sat32 (s.eng.cnt.toNat + 1) }))

/-- The frame of a tick, in every state: CMD, OVR, CUR.IDX and all outside the engine but line events are kept; RESULT, RES
and DONE change only at a finish; SR and BITCNT only in DH_BIT_HOLD; DUR only there or at a finish; line requests and
events only in a delay phase, and there only on the command's line, trigger or echo line (R130, R133, R134, R140, R166). -/
def Obligations.TickFrame : Prop :=
  ∀ (levels : Levels) (s t : State), tick levels s = .next t →
    t.cfg = s.cfg ∧ t.inputs = s.inputs ∧ t.drawNo = s.drawNo ∧ t.busLog = s.busLog ∧
    t.eng.cmd = s.eng.cmd ∧ t.eng.ovr = s.eng.ovr ∧ t.eng.curIdx = s.eng.curIdx ∧
    (t.eng.busy = s.eng.busy → t.eng.result = s.eng.result ∧ t.eng.res = s.eng.res ∧ t.eng.done = s.eng.done) ∧
    (s.eng.phase ≠ .dhBitHold → t.eng.sr = s.eng.sr ∧ t.eng.bitcnt = s.eng.bitcnt ∧
      (t.eng.busy = s.eng.busy → t.eng.dur = s.eng.dur)) ∧
    (phaseKind s.eng.phase ≠ .delay → t.eng.lines = s.eng.lines ∧ t.lineEvents = s.lineEvents) ∧
    (∀ l : Line, l ≠ curLine s.eng → l ≠ curTrig s.cfg s.eng → l ≠ curEchol s.cfg s.eng →
      t.eng.lines[l.toNat] = s.eng.lines[l.toNat]) ∧
    (∃ evs, t.lineEvents = s.lineEvents ++ evs ∧ ∀ e ∈ evs,
      eventLine e = curLine s.eng ∨ eventLine e = curTrig s.cfg s.eng ∨ eventLine e = curEchol s.cfg s.eng)

/-- R140: what `finish` leaves, for each code: BUSY 0, DONE 1, RES the code; TIMEOUT, UNSUPPORTED and ILLEGAL put their
sentinel into RESULT, the last two clear DUR; all else is kept; and ticks then change nothing. -/
def Obligations.FinishRecordsOutcome : Prop :=
  ∀ (s : State) (code : ResCode),
    (∀ levels : Levels, tick levels (s.finish code) = .next (s.finish code)) ∧
    s.finish code = { s with eng := { s.eng with
      busy := false, done := true, res := code,
      result := if code = .timeout then 0xFFFFFFFE else if code = .unsupported then 0xFFFFFFFF
        else if code = .illegal then 0xFFFFFFFD else s.eng.result,
      dur := if code = .unsupported ∨ code = .illegal then 0 else s.eng.dur } }

/-! ## Arithmetic -/

/-- R167: the per-bit classifier gives 1 exactly when d > 40; so 40 gives 0 and 41 gives 1. -/
def Obligations.ClassifierThreshold : Prop :=
  (∀ d : Word, classify d = true ↔ 40 < d.toNat) ∧ classify 40 = false ∧ classify 41 = true

/-- R166, R168, R169: 40 bits shifted in give, in each of the five bytes, the sum of its bits times 2^(7-i), first bit
highest. -/
def Obligations.FrameFoldsMsbFirst : Prop :=
  ∀ bits : List Bool, bits.length = 40 →
    ∀ sr : BitVec 40, sr = bits.foldl shiftIn 0 →
      let byte := fun j => ((List.range 8).map (fun i => (bits.getD (8 * j + i) false).toNat * 2 ^ (7 - i))).sum
      (humInt sr).toNat = byte 0 ∧ (humFrac sr).toNat = byte 1 ∧ (tempInt sr).toNat = byte 2 ∧
        (tempFrac sr).toNat = byte 3 ∧ (checkByte sr).toNat = byte 4

/-- R197: for a duration of at most 65535 the distance is exactly 17 * d, below 2^21. -/
def Obligations.DistanceIsExact : Prop :=
  ∀ d : Word, d.toNat ≤ 65535 → (distance d).toNat = 17 * d.toNat ∧ (distance d).toNat < 2 ^ 21

/-! ## Invariants -/

/-- The state after reset meets the invariant and the outcome record's (the configuration of `State.reset`, EXCFG with the
model's BASE, is log 3). -/
def Obligations.ResetMeetsInvariants : Prop :=
  State.reset.Inv ∧ RecordInv State.reset.cfg State.reset.eng

/-- R58 and what makes it inductive (`SequencerInv`): every step from a state that meets the invariant gives one that meets
it, whatever the event and the samples. -/
def Obligations.StepKeepsInvariants : Prop :=
  ∀ s t : State, s.Inv → step s = .next t → t.Inv

/-- R223: every step keeps the outcome record true: what RESULT, DUR, PHASE and BITCNT hold for each result code; DUR
of an OK WAITLVL is the count e and of every other OK and of CHECKSUM the last pulse's d = CNT - RISE. -/
def Obligations.StepKeepsOutcomeRecord : Prop :=
  ∀ s t : State, s.Inv → RecordInv s.cfg s.eng → step s = .next t → RecordInv t.cfg t.eng

/-- From a state that meets the invariant, with WINDOW_UNCACHED (R89), a step answers a next state: no fault, no refusal. -/
def Obligations.InvariantStatesAnswer : Prop :=
  ∀ s : State, s.Inv → s.cfg.windowUncached = true → ∃ t, step s = .next t

/-- R30: the configuration is no state: no step changes it. R85, I14: HOST_ORDERED_IO and LINE_ROUTING are the host's and
the platform's: with other values of them a step does the same. -/
def Obligations.ConfigurationNeverChanges : Prop :=
  (∀ s t : State, step s = .next t → t.cfg = s.cfg) ∧
  (∀ (s : State) (ordered : Bool) (routing : Vector (Option Pin) 32),
    (∀ t, step s = .next t →
      step { s with cfg.hostOrderedIo := ordered, cfg.lineRouting := routing } =
        .next { t with cfg.hostOrderedIo := ordered, cfg.lineRouting := routing }) ∧
    (∀ f, step s = .fault f →
      step { s with cfg.hostOrderedIo := ordered, cfg.lineRouting := routing } = .fault f) ∧
    (∀ r, step s = .refused r →
      step { s with cfg.hostOrderedIo := ordered, cfg.lineRouting := routing } = .refused r))

/-- R224: in a state that meets both invariants, an OK or CHECKSUM result of a bounded command is no sentinel, and is at
most 65535 (WAITLVL, PULSE), 255 (DHTREAD, bounded or not) or 1114095 (ECHO). -/
def Obligations.SentinelsAreNeverMeasured : Prop :=
  ∀ s : State, s.Inv → RecordInv s.cfg s.eng → (s.eng.res = .ok ∨ s.eng.res = .checksum) →
    (curUnb s.eng = false → s.eng.result ≠ 0xFFFFFFFF ∧ s.eng.result ≠ 0xFFFFFFFE ∧ s.eng.result ≠ 0xFFFFFFFD) ∧
    (curUnb s.eng = false → (curOp s.eng = 1 ∨ curOp s.eng = 2) → s.eng.result.toNat ≤ 65535) ∧
    (curOp s.eng = 3 → s.eng.result.toNat ≤ 255) ∧
    (curOp s.eng = 4 → s.eng.result.toNat ≤ 1114095)

/-! ## Reset -/

/-- R250: the reset input puts every element of the engine's state at its reset value, from any state, with no finish and no
line event. That what was recorded and drawn stays is the model's (log 2, log 6, log 9). -/
def Obligations.ResetInputClearsEngine : Prop :=
  ∀ (s : State) (rest : List Event), s.cfg.legal = true → s.inputs = .reset :: rest →
    step s = .next { s with inputs := rest, eng := Engine.reset }

/-- R57: the reset value of every element of the engine's state; STATUS reads 0. -/
def Obligations.ResetValues : Prop :=
  Engine.reset.cmd = 0 ∧ statusWord Engine.reset = 0 ∧ Engine.reset.busy = false ∧ Engine.reset.done = false ∧
  Engine.reset.ovr = false ∧ Engine.reset.res = .none ∧ Engine.reset.phase = .idle ∧ Engine.reset.bitcnt = 0 ∧
  Engine.reset.result = 0 ∧ Engine.reset.dur = 0 ∧ Engine.reset.sr = 0 ∧ frame0 Engine.reset = 0 ∧
  frame1 Engine.reset = 0 ∧ Engine.reset.cnt = 0 ∧ Engine.reset.rise = 0 ∧ Engine.reset.curIdx = 0 ∧
  (∀ l : Line, Engine.reset.lines[l.toNat] = { oe := false, out := false, pull := .none }) ∧
  State.reset.eng = Engine.reset

/-- R253: no host access cancels a running command: whatever the access, the engine stays as it was but for OVR and for DONE
(which is 0 while BUSY is 1, R58). -/
def Obligations.NoHostAccessEndsCommand : Prop :=
  ∀ (s t : State) (rest : List Event) (addr size : Nat) (kind : AccessKind), s.eng.busy = true →
    s.inputs = .access addr size kind :: rest → step s = .next t →
    t.eng = { s.eng with ovr := t.eng.ovr, done := t.eng.done } ∧ (s.eng.done = false → t.eng.done = false) ∧
      t.lineEvents = s.lineEvents

/-! ## Lines -/

/-- R50: the requests change only through drive and release, each with its one event: after a step that is no reset the new
requests are the old ones changed by the new events in order; a reset emits none (R250). -/
def Obligations.LineRequestsFollowEvents : Prop :=
  ∀ s t : State, step s = .next t →
    (s.inputs.head? ≠ some .reset → ∃ evs, t.lineEvents = s.lineEvents ++ evs ∧
      t.eng.lines = evs.foldl applyLineEvent s.eng.lines) ∧
    (s.inputs.head? = some .reset → t.lineEvents = s.lineEvents)

/-- R257: from a state that meets the invariant, a step that is no reset changes the request of no line but those the
command in CMD uses, and its line events are on those lines. -/
def Obligations.CommandTouchesOnlyItsLines : Prop :=
  ∀ s t : State, s.Inv → step s = .next t → s.inputs.head? ≠ some .reset →
    (∀ l : Line, t.eng.lines[l.toNat] ≠ s.eng.lines[l.toNat] →
      ∃ i, decode t.cfg.nLines t.eng.cmd = .ok i ∧ usesLine t.cfg i l) ∧
    ∃ evs, t.lineEvents = s.lineEvents ++ evs ∧
      ∀ e ∈ evs, ∃ i, decode t.cfg.nLines t.eng.cmd = .ok i ∧ usesLine t.cfg i (eventLine e)

/-- R199: an ECHO on the aux entry makes exactly one action on the aux line, drive(AUX_LINE, 1), at acceptance before any
other, and over any run of ticks after it none, so that the line stays requested high. -/
def Obligations.AuxLineDrivenOncePerEcho : Prop :=
  ∀ (sel : BitVec 8) (tmo : Timeout) (s t u : State) (ls : List Levels), s.cfg.legal = true → s.eng.busy = false →
    (echoEntry s.cfg s.cfg.auxEntry).selcode = sel → exec (.echo sel tmo) s = .next t → runTicks ls t = .next u →
    (∃ evs, t.lineEvents = s.lineEvents ++ .drive s.cfg.auxLine true :: evs ∧
      ∀ e ∈ evs, eventLine e ≠ s.cfg.auxLine) ∧
    (∃ evs, u.lineEvents = t.lineEvents ++ evs ∧ ∀ e ∈ evs, eventLine e ≠ s.cfg.auxLine) ∧
    u.eng.lines[s.cfg.auxLine.toNat].oe = true ∧ u.eng.lines[s.cfg.auxLine.toNat].out = true

/-! ## Whole commands -/

/-- R141, R142: WAITLVL on a line that first reaches LVL at its sample n (n <= TMO if bounded) finishes at tick a+n with OK
and RESULT = DUR = n, saturated (R138); nothing else of the machine changes. -/
def Obligations.WaitlvlMeasuresElapsed : Prop :=
  ∀ (line : Line) (lvl : Level) (unb : Bool) (tmo : Timeout) (s : State) (n : Nat) (ls : List Levels),
    s.cfg.legal = true → s.eng.busy = false → line.toNat < s.cfg.nLines → samplesOf ls line = waitWave lvl n →
    (unb = false → n ≤ tmo.toNat) →
    ∃ s1, exec (.waitlvl line lvl unb tmo) s = .next s1 ∧ s1.eng.busy = true ∧
      runTicks ls s1 = .next { s with
        eng := { s.eng with
          cmd := encode (.waitlvl line lvl unb tmo), busy := false, done := true, res := .ok, phase := .wlWait,
          bitcnt := 0, result := sat32 n, dur := sat32 n, cnt := sat32 n, rise := 0 } }

/-- R141, R142: bounded WAITLVL on a line that is not at LVL at its samples 0 to TMO finishes at tick a+TMO with TIMEOUT,
RESULT = 0xFFFFFFFE and DUR = TMO. -/
def Obligations.WaitlvlTimesOut : Prop :=
  ∀ (line : Line) (lvl : Level) (tmo : Timeout) (s : State) (ls : List Levels),
    s.cfg.legal = true → s.eng.busy = false → line.toNat < s.cfg.nLines →
    samplesOf ls line = List.replicate (tmo.toNat + 1) (!lvl) →
    ∃ s1, exec (.waitlvl line lvl false tmo) s = .next s1 ∧ s1.eng.busy = true ∧
      runTicks ls s1 = .next { s with
        eng := { s.eng with
          cmd := encode (.waitlvl line lvl false tmo), busy := false, done := true, res := .timeout, phase := .wlWait,
          bitcnt := 0, result := 0xFFFFFFFE, dur := tmo.zeroExtend 32, cnt := tmo.zeroExtend 32, rise := 0 } }

/-- R137, R143: PULSE on a line that is at LVL for d >= 1 consecutive samples after r others (r + d <= TMO if bounded)
finishes at tick a+r+d with OK and RESULT = DUR = d, or what the saturated counts give (R138). -/
def Obligations.PulseMeasuresDuration : Prop :=
  ∀ (line : Line) (lvl : Level) (unb : Bool) (tmo : Timeout) (s : State) (r d : Nat) (ls : List Levels),
    s.cfg.legal = true → s.eng.busy = false → line.toNat < s.cfg.nLines → 1 ≤ d →
    samplesOf ls line = pulseWave lvl r d → (unb = false → r + d ≤ tmo.toNat) →
    ∃ s1, exec (.pulse line lvl unb tmo) s = .next s1 ∧ s1.eng.busy = true ∧
      runTicks ls s1 = .next { s with
        eng := { s.eng with
          cmd := encode (.pulse line lvl unb tmo), busy := false, done := true, res := .ok, phase := .pmHold,
          bitcnt := 0, result := sat32 (r + d) - sat32 r, dur := sat32 (r + d) - sat32 r, cnt := sat32 (r + d),
          rise := sat32 r } } ∧
      (r + d ≤ 4294967295 → (sat32 (r + d) - sat32 r).toNat = d)

/-- R190 to R197, R202, R203: ECHO on a configured entry whose echo line, from tick a+12 on, is high for d >= 1 samples after
r low ones, r + d <= TMO, finishes at tick a+12+r+d with OK, DUR = d and RESULT = 17 * d, having done the setup's and the
trigger's line events and no other. -/
def Obligations.EchoMeasuresDistance : Prop :=
  ∀ (sel : BitVec 8) (tmo : Timeout) (k : Fin 3) (s : State) (r d : Nat) (pre ls : List Levels),
    s.cfg.legal = true → s.eng.busy = false → (echoEntry s.cfg k).selcode = sel → pre.length = 12 → 1 ≤ d →
    r + d ≤ tmo.toNat → samplesOf ls (echoEntry s.cfg k).echol = pulseWave true r d →
    ∃ s1 t, exec (.echo sel tmo) s = .next s1 ∧ s1.eng.busy = true ∧ runTicks (pre ++ ls) s1 = .next t ∧
      complete t.eng = true ∧ t.eng.res = .ok ∧ t.eng.phase = .ecHold ∧ t.eng.dur.toNat = d ∧
      t.eng.result.toNat = 17 * d ∧ echoReading t.eng = .distance (17 * d) ∧
      t.lineEvents = s.lineEvents ++ setupEvents s.cfg k ++ triggerEvents s.cfg k ∧
      t.eng.sr = s.eng.sr ∧ t.eng.ovr = s.eng.ovr

/-- R198: ECHO with no echo in time, or with an echo still high at the deadline, finishes at tick a+12+TMO with TIMEOUT,
RESULT = 0xFFFFFFFE and DUR = TMO, PHASE telling the two apart; the host reads no distance. -/
def Obligations.EchoReportsNoEcho : Prop :=
  ∀ (sel : BitVec 8) (tmo : Timeout) (k : Fin 3) (s : State) (r : Nat) (pre ls : List Levels),
    s.cfg.legal = true → s.eng.busy = false → (echoEntry s.cfg k).selcode = sel → pre.length = 12 →
    r ≤ tmo.toNat + 1 →
    samplesOf ls (echoEntry s.cfg k).echol = List.replicate r false ++ List.replicate (tmo.toNat + 1 - r) true →
    ∃ s1 t, exec (.echo sel tmo) s = .next s1 ∧ s1.eng.busy = true ∧ runTicks (pre ++ ls) s1 = .next t ∧
      complete t.eng = true ∧ t.eng.res = .timeout ∧ t.eng.result = 0xFFFFFFFE ∧ t.eng.dur = tmo.zeroExtend 32 ∧
      t.eng.phase = (if r < tmo.toNat then .ecHold else .ecRise) ∧ echoReading t.eng = .noReading

/-- R162, R163, R176: after the acceptance of a DHTREAD the line is driven low for the samples of exactly 18000 ticks, then
high for exactly 40, then released with pull-up into DH_HS1, whatever is sampled. -/
def Obligations.DhtreadWakeSequence : Prop :=
  ∀ (line : Line) (unb chk : Bool) (fld : DhtField) (tmo : Timeout) (s : State) (ls : List Levels),
    s.cfg.legal = true → s.eng.busy = false → line.toNat < s.cfg.nLines → ls.length ≤ 18040 →
    ∃ s1 t, exec (.dhtread line unb chk fld tmo) s = .next s1 ∧ runTicks ls s1 = .next t ∧ t.eng.busy = true ∧
      (ls.length < 18000 → t.eng.phase = .dhWakeLow ∧ t.eng.lines[line.toNat].oe = true ∧
        t.eng.lines[line.toNat].out = false ∧ t.lineEvents = s.lineEvents ++ [.drive line false]) ∧
      (18000 ≤ ls.length → ls.length < 18040 → t.eng.phase = .dhWakeHigh ∧ t.eng.lines[line.toNat].oe = true ∧
        t.eng.lines[line.toNat].out = true ∧
        t.lineEvents = s.lineEvents ++ [.drive line false, .drive line true]) ∧
      (ls.length = 18040 → t.eng.phase = .dhHs1 ∧ t.eng.cnt = 0 ∧ t.eng.lines[line.toNat].oe = false ∧
        t.eng.lines[line.toNat].pull = .up ∧
        t.lineEvents = s.lineEvents ++ [.drive line false, .drive line true, .release line .up])

/-- R160 to R170: DHTREAD on a line that, from tick a+18040 on, gives the three handshake levels and 40 bit-slots, each wait
and each bit within TMO if bounded, finishes at the tick that ends the 40th bit with the frame in SR, RESULT the selected
byte (SR[39:32] for humidity, SR[23:16] for temperature), and CHECKSUM exactly where CHK = 1 and SR[7:0] is not the sum of
the four data bytes mod 256 (R171, log 21), else OK; its only line events are the wake's. -/
def Obligations.DhtreadDecodesFrame : Prop :=
  ∀ (line : Line) (unb chk : Bool) (fld : DhtField) (tmo : Timeout) (s : State) (n1 n2 n3 : Nat)
    (bits : List (Nat × Nat)) (pre ls : List Levels),
    s.cfg.legal = true → s.eng.busy = false → line.toNat < s.cfg.nLines → pre.length = 18040 →
    bits.length = 40 → (∀ b ∈ bits, 1 ≤ b.2 ∧ b.1 + b.2 ≤ 4294967295) →
    (unb = false → n1 ≤ tmo.toNat ∧ n2 ≤ tmo.toNat ∧ n3 ≤ tmo.toNat ∧ ∀ b ∈ bits, b.1 + b.2 ≤ tmo.toNat) →
    samplesOf ls line = waitWave false n1 ++ waitWave true n2 ++ waitWave false n3 ++ frameWave bits →
    ∃ s1 t, exec (.dhtread line unb chk fld tmo) s = .next s1 ∧ s1.eng.busy = true ∧
      runTicks (pre ++ ls) s1 = .next t ∧ complete t.eng = true ∧ t.eng.phase = .dhBitHold ∧ t.eng.bitcnt = 40 ∧
      t.eng.sr = frameOf bits ∧
      t.eng.result = (match fld with
        | .humidity => (frameOf bits).extractLsb' 32 8
        | .temperature => (frameOf bits).extractLsb' 16 8).zeroExtend 32 ∧
      t.eng.res = (if chk = true ∧ ((frameOf bits).extractLsb' 0 8).toNat ≠
          (((frameOf bits).extractLsb' 32 8).toNat + ((frameOf bits).extractLsb' 24 8).toNat +
            ((frameOf bits).extractLsb' 16 8).toNat + ((frameOf bits).extractLsb' 8 8).toNat) % 256
        then .checksum else .ok) ∧
      t.lineEvents = s.lineEvents ++ [.drive line false, .drive line true, .release line .up] ∧
      t.eng.ovr = s.eng.ovr

/-- R139, R173: while the awaited level never appears, an unbounded wait goes on: every tick only counts, saturating, and
BUSY stays 1. -/
def Obligations.UnboundedWaitGoesOn : Prop :=
  ∀ (s : State) (ls : List Levels), s.cfg.legal = true → s.eng.busy = true → phaseKind s.eng.phase = .wait →
    phaseOp s.eng.phase = curOp s.eng → curUnb s.eng = true →
    (∀ lv ∈ ls, sample lv (curLine s.eng) ≠ awaited s.eng) →
    runTicks ls s = .next { s with eng.cnt := sat32 (s.eng.cnt.toNat + ls.length) }

/-- R262 (latest finish), R190: a bounded command accepted while idle has finished after `latestFinish` ticks, whatever is
sampled: DHTREAD after 18040 + 43 * (TMO + 1), ECHO after 12 + TMO + 1, WAITLVL and PULSE after TMO + 1. -/
def Obligations.BoundedCommandsFinish : Prop :=
  ∀ (i : Instr) (s : State) (ls : List Levels), s.cfg.legal = true → s.eng.busy = false →
    i.wf s.cfg.nLines = true → boundedCommand i = true → ls.length = latestFinish i →
    ∃ s1 t, exec i s = .next s1 ∧ runTicks ls s1 = .next t ∧ complete t.eng = true ∧ t.eng.cmd = encode i

/-- R262 (earliest finish), R176: no command ends with OK or CHECKSUM before its earliest tick, whatever is sampled: WAITLVL
tick a, PULSE a+1, DHTREAD a+18122, ECHO a+13. -/
def Obligations.NoResultBeforeEarliest : Prop :=
  ∀ (i : Instr) (s s1 t : State) (ls : List Levels), s.cfg.legal = true → s.eng.busy = false →
    exec i s = .next s1 → runTicks ls s1 = .next t → (t.eng.res = .ok ∨ t.eng.res = .checksum) →
    earliestResult i ≤ ls.length
end

