-- ==== Sys2Proof/Laws/Decode.lean ====
section
/-! SUPPORT. The fields the decoder reads from an encoded command (`30_encoding.md` R102 to R105), one lemma a field. -/

namespace Sys2Proof

section
variable (line : Line) (lvl : Level) (unb chk : Bool) (fld : DhtField) (sel : BitVec 8) (tmo : Timeout)

@[simp] theorem opField_waitlvl : opField (encode (.waitlvl line lvl unb tmo)) = 1 := by
  ext i hi
  simp only [opField, encode, BitVec.getElem_extractLsb', BitVec.getLsbD_append, BitVec.getLsbD_ofBool]
  interval_cases i <;> simp

@[simp] theorem lineField_waitlvl : lineField (encode (.waitlvl line lvl unb tmo)) = line := by
  ext i hi
  simp only [lineField, encode, BitVec.getElem_extractLsb', BitVec.getLsbD_append, BitVec.getLsbD_ofBool]
  interval_cases i <;> simp

@[simp] theorem lvlField_waitlvl : lvlField (encode (.waitlvl line lvl unb tmo)) = lvl := by
  simp only [lvlField, encode, BitVec.getLsbD_append, BitVec.getLsbD_ofBool]
  simp

@[simp] theorem unbField_waitlvl : unbField (encode (.waitlvl line lvl unb tmo)) = unb := by
  simp only [unbField, encode, BitVec.getLsbD_append, BitVec.getLsbD_ofBool]
  simp

@[simp] theorem tmoField_waitlvl : tmoField (encode (.waitlvl line lvl unb tmo)) = tmo := by
  ext i hi
  simp only [tmoField, encode, BitVec.getElem_extractLsb', BitVec.getLsbD_append, BitVec.getLsbD_ofBool]
  interval_cases i <;> simp

@[simp] theorem opField_pulse : opField (encode (.pulse line lvl unb tmo)) = 2 := by
  ext i hi
  simp only [opField, encode, BitVec.getElem_extractLsb', BitVec.getLsbD_append, BitVec.getLsbD_ofBool]
  interval_cases i <;> simp

@[simp] theorem lineField_pulse : lineField (encode (.pulse line lvl unb tmo)) = line := by
  ext i hi
  simp only [lineField, encode, BitVec.getElem_extractLsb', BitVec.getLsbD_append, BitVec.getLsbD_ofBool]
  interval_cases i <;> simp

@[simp] theorem lvlField_pulse : lvlField (encode (.pulse line lvl unb tmo)) = lvl := by
  simp only [lvlField, encode, BitVec.getLsbD_append, BitVec.getLsbD_ofBool]
  simp

@[simp] theorem unbField_pulse : unbField (encode (.pulse line lvl unb tmo)) = unb := by
  simp only [unbField, encode, BitVec.getLsbD_append, BitVec.getLsbD_ofBool]
  simp

@[simp] theorem tmoField_pulse : tmoField (encode (.pulse line lvl unb tmo)) = tmo := by
  ext i hi
  simp only [tmoField, encode, BitVec.getElem_extractLsb', BitVec.getLsbD_append, BitVec.getLsbD_ofBool]
  interval_cases i <;> simp

@[simp] theorem opField_dhtread : opField (encode (.dhtread line unb chk fld tmo)) = 3 := by
  ext i hi
  simp only [opField, encode, BitVec.getElem_extractLsb', BitVec.getLsbD_append, BitVec.getLsbD_ofBool]
  interval_cases i <;> simp

@[simp] theorem lineField_dhtread : lineField (encode (.dhtread line unb chk fld tmo)) = line := by
  ext i hi
  simp only [lineField, encode, BitVec.getElem_extractLsb', BitVec.getLsbD_append, BitVec.getLsbD_ofBool]
  interval_cases i <;> simp

@[simp] theorem unbField_dhtread : unbField (encode (.dhtread line unb chk fld tmo)) = unb := by
  simp only [unbField, encode, BitVec.getLsbD_append, BitVec.getLsbD_ofBool]
  simp

@[simp] theorem chkField_dhtread : chkField (encode (.dhtread line unb chk fld tmo)) = chk := by
  simp only [chkField, encode, BitVec.getLsbD_append, BitVec.getLsbD_ofBool]
  simp

@[simp] theorem fldField_dhtread : fldField (encode (.dhtread line unb chk fld tmo)) = fld := by
  simp only [fldField, encode, BitVec.getLsbD_append, BitVec.getLsbD_ofBool]
  cases fld <;> simp [fldBit]

@[simp] theorem tmoField_dhtread : tmoField (encode (.dhtread line unb chk fld tmo)) = tmo := by
  ext i hi
  simp only [tmoField, encode, BitVec.getElem_extractLsb', BitVec.getLsbD_append, BitVec.getLsbD_ofBool]
  interval_cases i <;> simp

@[simp] theorem opField_echo : opField (encode (.echo sel tmo)) = 4 := by
  ext i hi
  simp only [opField, encode, BitVec.getElem_extractLsb', BitVec.getLsbD_append]
  interval_cases i <;> simp

@[simp] theorem selField_echo : selField (encode (.echo sel tmo)) = sel := by
  ext i hi
  simp only [selField, encode, BitVec.getElem_extractLsb', BitVec.getLsbD_append]
  interval_cases i <;> simp

@[simp] theorem tmoField_echo : tmoField (encode (.echo sel tmo)) = tmo := by
  ext i hi
  simp only [tmoField, encode, BitVec.getElem_extractLsb', BitVec.getLsbD_append]
  interval_cases i <;> simp

@[simp] theorem reservedClearL_waitlvl : reservedClearL (encode (.waitlvl line lvl unb tmo)) = true := by
  have h0 : (encode (.waitlvl line lvl unb tmo)).extractLsb' 16 5 = 0 := by
    ext i hi
    simp only [encode, BitVec.getElem_extractLsb', BitVec.getLsbD_append, BitVec.getLsbD_ofBool]
    interval_cases i <;> simp
  simp [reservedClearL, h0]

@[simp] theorem reservedClearL_pulse : reservedClearL (encode (.pulse line lvl unb tmo)) = true := by
  have h0 : (encode (.pulse line lvl unb tmo)).extractLsb' 16 5 = 0 := by
    ext i hi
    simp only [encode, BitVec.getElem_extractLsb', BitVec.getLsbD_append, BitVec.getLsbD_ofBool]
    interval_cases i <;> simp
  simp [reservedClearL, h0]

@[simp] theorem reservedClearD_dhtread : reservedClearD (encode (.dhtread line unb chk fld tmo)) = true := by
  have h0 : (encode (.dhtread line unb chk fld tmo)).extractLsb' 22 1 = 0 := by
    ext i hi
    simp only [encode, BitVec.getElem_extractLsb', BitVec.getLsbD_append, BitVec.getLsbD_ofBool]
    interval_cases i
    simp
  have h1 : (encode (.dhtread line unb chk fld tmo)).extractLsb' 16 3 = 0 := by
    ext i hi
    simp only [encode, BitVec.getElem_extractLsb', BitVec.getLsbD_append, BitVec.getLsbD_ofBool]
    interval_cases i <;> simp
  simp [reservedClearD, h0, h1]

@[simp] theorem reservedClearE_echo : reservedClearE (encode (.echo sel tmo)) = true := by
  have h0 : (encode (.echo sel tmo)).extractLsb' 16 4 = 0 := by
    ext i hi
    simp only [encode, BitVec.getElem_extractLsb', BitVec.getLsbD_append]
    interval_cases i <;> simp
  simp [reservedClearE, h0]

end

/-- The encoded word of a command is legal exactly when the command is well formed (R108). -/
@[simp] theorem legalWord_encode (n : Nat) (i : Instr) : legalWord n (encode i) = i.wf n := by
  cases i with
  | waitlvl line lvl unb tmo =>
    have h := reservedClearL_waitlvl line lvl unb tmo
    simp only [reservedClearL, beq_iff_eq] at h
    simpa [legalWord, Instr.wf] using fun _ => h
  | pulse line lvl unb tmo =>
    have h := reservedClearL_pulse line lvl unb tmo
    simp only [reservedClearL, beq_iff_eq] at h
    simpa [legalWord, Instr.wf] using fun _ => h
  | dhtread line unb chk fld tmo =>
    have h := reservedClearD_dhtread line unb chk fld tmo
    have h22 : (encode (.dhtread line unb chk fld tmo)).getLsbD 22 = false := by
      simp only [encode, BitVec.getLsbD_append, BitVec.getLsbD_ofBool]
      simp
    simp only [reservedClearD, Bool.and_eq_true] at h
    simp only [legalWord, opField_dhtread, Instr.wf, lineField_dhtread, h22, h.2]
    simp
  | echo sel tmo =>
    have h := reservedClearE_echo sel tmo
    simp only [reservedClearE, beq_iff_eq] at h
    simpa [legalWord, Instr.wf] using h

end Sys2Proof
end

