-- ==== Sys2Proof/Laws/State.lean ====
section
/-! SUPPORT. One lemma per field of State per update, each true by rfl, so that no later proof unfolds a record update.
The lemma about `eng` gives every register of the engine at once. -/

namespace Sys2Proof.Machine

/-! ## drive -/

@[simp] theorem State.drive_cfg (s : State) (l : Line) (v : Level) : (s.drive l v).cfg = s.cfg := rfl

@[simp] theorem State.drive_eng (s : State) (l : Line) (v : Level) :
    (s.drive l v).eng = { s.eng with lines := s.eng.lines.set l.toNat { s.eng.lines[l.toNat] with oe := true, out := v } } := rfl

@[simp] theorem State.drive_inputs (s : State) (l : Line) (v : Level) : (s.drive l v).inputs = s.inputs := rfl

@[simp] theorem State.drive_drawNo (s : State) (l : Line) (v : Level) : (s.drive l v).drawNo = s.drawNo := rfl

@[simp] theorem State.drive_lineEvents (s : State) (l : Line) (v : Level) : (s.drive l v).lineEvents = s.lineEvents ++ [.drive l v] := rfl

@[simp] theorem State.drive_busLog (s : State) (l : Line) (v : Level) : (s.drive l v).busLog = s.busLog := rfl

/-! ## release -/

@[simp] theorem State.release_cfg (s : State) (l : Line) (p : Pull) : (s.release l p).cfg = s.cfg := rfl

@[simp] theorem State.release_eng (s : State) (l : Line) (p : Pull) :
    (s.release l p).eng = { s.eng with lines := s.eng.lines.set l.toNat { s.eng.lines[l.toNat] with oe := false, pull := p } } := rfl

@[simp] theorem State.release_inputs (s : State) (l : Line) (p : Pull) : (s.release l p).inputs = s.inputs := rfl

@[simp] theorem State.release_drawNo (s : State) (l : Line) (p : Pull) : (s.release l p).drawNo = s.drawNo := rfl

@[simp] theorem State.release_lineEvents (s : State) (l : Line) (p : Pull) : (s.release l p).lineEvents = s.lineEvents ++ [.release l p] := rfl

@[simp] theorem State.release_busLog (s : State) (l : Line) (p : Pull) : (s.release l p).busLog = s.busLog := rfl

/-! ## enterPhase -/

@[simp] theorem State.enterPhase_cfg (s : State) (p : Phase) : (s.enterPhase p).cfg = s.cfg := rfl

@[simp] theorem State.enterPhase_eng (s : State) (p : Phase) :
    (s.enterPhase p).eng = { s.eng with phase := p, cnt := 0 } := rfl

@[simp] theorem State.enterPhase_inputs (s : State) (p : Phase) : (s.enterPhase p).inputs = s.inputs := rfl

@[simp] theorem State.enterPhase_drawNo (s : State) (p : Phase) : (s.enterPhase p).drawNo = s.drawNo := rfl

@[simp] theorem State.enterPhase_lineEvents (s : State) (p : Phase) : (s.enterPhase p).lineEvents = s.lineEvents := rfl

@[simp] theorem State.enterPhase_busLog (s : State) (p : Phase) : (s.enterPhase p).busLog = s.busLog := rfl

/-! ## startPhase -/

@[simp] theorem State.startPhase_cfg (s : State) (p : Phase) : (s.startPhase p).cfg = s.cfg := rfl

@[simp] theorem State.startPhase_eng (s : State) (p : Phase) :
    (s.startPhase p).eng = { s.eng with phase := p, cnt := 0, busy := true } := rfl

@[simp] theorem State.startPhase_inputs (s : State) (p : Phase) : (s.startPhase p).inputs = s.inputs := rfl

@[simp] theorem State.startPhase_drawNo (s : State) (p : Phase) : (s.startPhase p).drawNo = s.drawNo := rfl

@[simp] theorem State.startPhase_lineEvents (s : State) (p : Phase) : (s.startPhase p).lineEvents = s.lineEvents := rfl

@[simp] theorem State.startPhase_busLog (s : State) (p : Phase) : (s.startPhase p).busLog = s.busLog := rfl

/-! ## finish -/

@[simp] theorem State.finish_cfg (s : State) (c : ResCode) : (s.finish c).cfg = s.cfg := rfl

@[simp] theorem State.finish_eng (s : State) (c : ResCode) :
    (s.finish c).eng = { s.eng with busy := false, done := true, res := c, result := c.sentinel.getD s.eng.result, dur := if c.clearsDur then 0 else s.eng.dur } := rfl

@[simp] theorem State.finish_inputs (s : State) (c : ResCode) : (s.finish c).inputs = s.inputs := rfl

@[simp] theorem State.finish_drawNo (s : State) (c : ResCode) : (s.finish c).drawNo = s.drawNo := rfl

@[simp] theorem State.finish_lineEvents (s : State) (c : ResCode) : (s.finish c).lineEvents = s.lineEvents := rfl

@[simp] theorem State.finish_busLog (s : State) (c : ResCode) : (s.finish c).busLog = s.busLog := rfl

/-! ## finishValue -/

@[simp] theorem State.finishValue_cfg (s : State) (v : Word) : (s.finishValue v).cfg = s.cfg := rfl

@[simp] theorem State.finishValue_eng (s : State) (v : Word) :
    (s.finishValue v).eng = { s.eng with busy := false, done := true, res := .ok, result := v, dur := v } := rfl

@[simp] theorem State.finishValue_inputs (s : State) (v : Word) : (s.finishValue v).inputs = s.inputs := rfl

@[simp] theorem State.finishValue_drawNo (s : State) (v : Word) : (s.finishValue v).drawNo = s.drawNo := rfl

@[simp] theorem State.finishValue_lineEvents (s : State) (v : Word) : (s.finishValue v).lineEvents = s.lineEvents := rfl

@[simp] theorem State.finishValue_busLog (s : State) (v : Word) : (s.finishValue v).busLog = s.busLog := rfl

/-! ## latch -/

@[simp] theorem State.latch_cfg (s : State) (w : Word) : (s.latch w).cfg = s.cfg := rfl

@[simp] theorem State.latch_eng (s : State) (w : Word) :
    (s.latch w).eng = { s.eng with cmd := w, done := false, res := .none, bitcnt := 0, cnt := 0, rise := 0, result := 0, dur := 0 } := rfl

@[simp] theorem State.latch_inputs (s : State) (w : Word) : (s.latch w).inputs = s.inputs := rfl

@[simp] theorem State.latch_drawNo (s : State) (w : Word) : (s.latch w).drawNo = s.drawNo := rfl

@[simp] theorem State.latch_lineEvents (s : State) (w : Word) : (s.latch w).lineEvents = s.lineEvents := rfl

@[simp] theorem State.latch_busLog (s : State) (w : Word) : (s.latch w).busLog = s.busLog := rfl

/-! ## overrun -/

@[simp] theorem State.overrun_cfg (s : State) : (s.overrun).cfg = s.cfg := rfl

@[simp] theorem State.overrun_eng (s : State) : (s.overrun).eng = { s.eng with ovr := true } := rfl

@[simp] theorem State.overrun_inputs (s : State) : (s.overrun).inputs = s.inputs := rfl

@[simp] theorem State.overrun_drawNo (s : State) : (s.overrun).drawNo = s.drawNo := rfl

@[simp] theorem State.overrun_lineEvents (s : State) : (s.overrun).lineEvents = s.lineEvents := rfl

@[simp] theorem State.overrun_busLog (s : State) : (s.overrun).busLog = s.busLog := rfl

/-! ## endAtAcceptance -/

@[simp] theorem State.endAtAcceptance_cfg (s : State) (c : ResCode) : (s.endAtAcceptance c).cfg = s.cfg := rfl

@[simp] theorem State.endAtAcceptance_eng (s : State) (c : ResCode) :
    (s.endAtAcceptance c).eng = { s.eng with phase := .idle, busy := false, done := true, res := c, result := c.sentinel.getD s.eng.result, dur := if c.clearsDur then 0 else s.eng.dur } := rfl

@[simp] theorem State.endAtAcceptance_inputs (s : State) (c : ResCode) : (s.endAtAcceptance c).inputs = s.inputs := rfl

@[simp] theorem State.endAtAcceptance_drawNo (s : State) (c : ResCode) : (s.endAtAcceptance c).drawNo = s.drawNo := rfl

@[simp] theorem State.endAtAcceptance_lineEvents (s : State) (c : ResCode) : (s.endAtAcceptance c).lineEvents = s.lineEvents := rfl

@[simp] theorem State.endAtAcceptance_busLog (s : State) (c : ResCode) : (s.endAtAcceptance c).busLog = s.busLog := rfl

/-! ## timeOut -/

@[simp] theorem State.timeOut_cfg (s : State) : (s.timeOut).cfg = s.cfg := rfl

@[simp] theorem State.timeOut_eng (s : State) :
    (s.timeOut).eng = { s.eng with busy := false, done := true, res := .timeout, result := 0xFFFFFFFE, dur := s.eng.cnt } := rfl

@[simp] theorem State.timeOut_inputs (s : State) : (s.timeOut).inputs = s.inputs := rfl

@[simp] theorem State.timeOut_drawNo (s : State) : (s.timeOut).drawNo = s.drawNo := rfl

@[simp] theorem State.timeOut_lineEvents (s : State) : (s.timeOut).lineEvents = s.lineEvents := rfl

@[simp] theorem State.timeOut_busLog (s : State) : (s.timeOut).busLog = s.busLog := rfl

/-! ## countOn -/

@[simp] theorem State.countOn_cfg (s : State) : (s.countOn).cfg = s.cfg := rfl

@[simp] theorem State.countOn_eng (s : State) :
    (s.countOn).eng = { s.eng with cnt := sat32 (s.eng.cnt.toNat + 1) } := rfl

@[simp] theorem State.countOn_inputs (s : State) : (s.countOn).inputs = s.inputs := rfl

@[simp] theorem State.countOn_drawNo (s : State) : (s.countOn).drawNo = s.drawNo := rfl

@[simp] theorem State.countOn_lineEvents (s : State) : (s.countOn).lineEvents = s.lineEvents := rfl

@[simp] theorem State.countOn_busLog (s : State) : (s.countOn).busLog = s.busLog := rfl

/-! ## riseSeen -/

@[simp] theorem State.riseSeen_cfg (s : State) (p : Phase) : (s.riseSeen p).cfg = s.cfg := rfl

@[simp] theorem State.riseSeen_eng (s : State) (p : Phase) :
    (s.riseSeen p).eng = { s.eng with rise := s.eng.cnt, phase := p, cnt := sat32 (s.eng.cnt.toNat + 1) } := rfl

@[simp] theorem State.riseSeen_inputs (s : State) (p : Phase) : (s.riseSeen p).inputs = s.inputs := rfl

@[simp] theorem State.riseSeen_drawNo (s : State) (p : Phase) : (s.riseSeen p).drawNo = s.drawNo := rfl

@[simp] theorem State.riseSeen_lineEvents (s : State) (p : Phase) : (s.riseSeen p).lineEvents = s.lineEvents := rfl

@[simp] theorem State.riseSeen_busLog (s : State) (p : Phase) : (s.riseSeen p).busLog = s.busLog := rfl

/-! ## replyData -/

@[simp] theorem State.replyData_cfg (s : State) (a : Nat) (v : Word) : (s.replyData a v).cfg = s.cfg := rfl

@[simp] theorem State.replyData_eng (s : State) (a : Nat) (v : Word) : (s.replyData a v).eng = s.eng := rfl

@[simp] theorem State.replyData_inputs (s : State) (a : Nat) (v : Word) : (s.replyData a v).inputs = s.inputs := rfl

@[simp] theorem State.replyData_drawNo (s : State) (a : Nat) (v : Word) : (s.replyData a v).drawNo = s.drawNo := rfl

@[simp] theorem State.replyData_lineEvents (s : State) (a : Nat) (v : Word) : (s.replyData a v).lineEvents = s.lineEvents := rfl

@[simp] theorem State.replyData_busLog (s : State) (a : Nat) (v : Word) : (s.replyData a v).busLog = s.busLog ++ [.data a v] := rfl

/-! ## raiseBusError -/

@[simp] theorem State.raiseBusError_cfg (s : State) (a : Nat) : (s.raiseBusError a).cfg = s.cfg := rfl

@[simp] theorem State.raiseBusError_eng (s : State) (a : Nat) : (s.raiseBusError a).eng = s.eng := rfl

@[simp] theorem State.raiseBusError_inputs (s : State) (a : Nat) : (s.raiseBusError a).inputs = s.inputs := rfl

@[simp] theorem State.raiseBusError_drawNo (s : State) (a : Nat) : (s.raiseBusError a).drawNo = s.drawNo := rfl

@[simp] theorem State.raiseBusError_lineEvents (s : State) (a : Nat) : (s.raiseBusError a).lineEvents = s.lineEvents := rfl

@[simp] theorem State.raiseBusError_busLog (s : State) (a : Nat) : (s.raiseBusError a).busLog = s.busLog ++ [.busError a] := rfl

/-! ## hardReset -/

@[simp] theorem State.hardReset_cfg (s : State) : (s.hardReset).cfg = s.cfg := rfl

@[simp] theorem State.hardReset_eng (s : State) : (s.hardReset).eng = Engine.reset := rfl

@[simp] theorem State.hardReset_inputs (s : State) : (s.hardReset).inputs = s.inputs := rfl

@[simp] theorem State.hardReset_drawNo (s : State) : (s.hardReset).drawNo = s.drawNo := rfl

@[simp] theorem State.hardReset_lineEvents (s : State) : (s.hardReset).lineEvents = s.lineEvents := rfl

@[simp] theorem State.hardReset_busLog (s : State) : (s.hardReset).busLog = s.busLog := rfl

/-! ## storeBit -/

@[simp] theorem storeBit_cfg (s : State) (d : Word) : (storeBit d s).cfg = s.cfg := rfl

@[simp] theorem storeBit_eng (s : State) (d : Word) :
    (storeBit d s).eng = { s.eng with sr := shiftIn s.eng.sr (classify d), bitcnt := s.eng.bitcnt + 1, dur := d } := rfl

@[simp] theorem storeBit_inputs (s : State) (d : Word) : (storeBit d s).inputs = s.inputs := rfl

@[simp] theorem storeBit_drawNo (s : State) (d : Word) : (storeBit d s).drawNo = s.drawNo := rfl

@[simp] theorem storeBit_lineEvents (s : State) (d : Word) : (storeBit d s).lineEvents = s.lineEvents := rfl

@[simp] theorem storeBit_busLog (s : State) (d : Word) : (storeBit d s).busLog = s.busLog := rfl

/-! ## extractAndFinish -/

@[simp] theorem extractAndFinish_cfg (s : State) : (extractAndFinish s).cfg = s.cfg := rfl

@[simp] theorem extractAndFinish_eng (s : State) :
    (extractAndFinish s).eng = { s.eng with busy := false, done := true, res := if curChk s.eng && !checksumGood s.eng.sr then .checksum else .ok, result := (selectField (curFld s.eng) s.eng.sr).zeroExtend 32 } := by
  unfold extractAndFinish; split <;> rfl

@[simp] theorem extractAndFinish_inputs (s : State) : (extractAndFinish s).inputs = s.inputs := rfl

@[simp] theorem extractAndFinish_drawNo (s : State) : (extractAndFinish s).drawNo = s.drawNo := rfl

@[simp] theorem extractAndFinish_lineEvents (s : State) : (extractAndFinish s).lineEvents = s.lineEvents := rfl

@[simp] theorem extractAndFinish_busLog (s : State) : (extractAndFinish s).busLog = s.busLog := rfl

/-! ## echoEnd -/

@[simp] theorem echoEnd_cfg (s : State) (d : Word) : (echoEnd d s).cfg = s.cfg := rfl

@[simp] theorem echoEnd_eng (s : State) (d : Word) :
    (echoEnd d s).eng = { s.eng with busy := false, done := true, res := .ok, result := distance d, dur := d } := rfl

@[simp] theorem echoEnd_inputs (s : State) (d : Word) : (echoEnd d s).inputs = s.inputs := rfl

@[simp] theorem echoEnd_drawNo (s : State) (d : Word) : (echoEnd d s).drawNo = s.drawNo := rfl

@[simp] theorem echoEnd_lineEvents (s : State) (d : Word) : (echoEnd d s).lineEvents = s.lineEvents := rfl

@[simp] theorem echoEnd_busLog (s : State) (d : Word) : (echoEnd d s).busLog = s.busLog := rfl

/-! ## acceptDht -/

@[simp] theorem acceptDht_cfg (s : State) (l : Line) : (acceptDht l s).cfg = s.cfg := rfl

@[simp] theorem acceptDht_eng (s : State) (l : Line) :
    (acceptDht l s).eng = { s.eng with sr := 0, phase := .dhWakeLow, cnt := 0, busy := true, lines := s.eng.lines.set l.toNat { s.eng.lines[l.toNat] with oe := true, out := false } } := rfl

@[simp] theorem acceptDht_inputs (s : State) (l : Line) : (acceptDht l s).inputs = s.inputs := rfl

@[simp] theorem acceptDht_drawNo (s : State) (l : Line) : (acceptDht l s).drawNo = s.drawNo := rfl

@[simp] theorem acceptDht_lineEvents (s : State) (l : Line) :
    (acceptDht l s).lineEvents = s.lineEvents ++ [.drive l false] := rfl

@[simp] theorem acceptDht_busLog (s : State) (l : Line) : (acceptDht l s).busLog = s.busLog := rfl

/-! ## writeStatus -/

@[simp] theorem writeStatus_cfg (s : State) (w : Word) : (writeStatus w s).cfg = s.cfg := rfl

@[simp] theorem writeStatus_eng (s : State) (w : Word) :
    (writeStatus w s).eng = { s.eng with done := if w.getLsbD 1 then false else s.eng.done, ovr := if w.getLsbD 2 then false else s.eng.ovr } := rfl

@[simp] theorem writeStatus_inputs (s : State) (w : Word) : (writeStatus w s).inputs = s.inputs := rfl

@[simp] theorem writeStatus_drawNo (s : State) (w : Word) : (writeStatus w s).drawNo = s.drawNo := rfl

@[simp] theorem writeStatus_lineEvents (s : State) (w : Word) : (writeStatus w s).lineEvents = s.lineEvents := rfl

@[simp] theorem writeStatus_busLog (s : State) (w : Word) : (writeStatus w s).busLog = s.busLog := rfl

end Sys2Proof.Machine
end

