-- ==== Sys2Proof/Laws/Ops.lean ====
section
/-! SUPPORT. One lemma for each shared operation that says everything it can do, to be cited instead of unfolding it. -/

namespace Sys2Proof.Machine

/-! ## Arithmetic -/

/-- sat32(v) = min(v, 0xFFFFFFFF) (R16). -/
@[simp] theorem sat32_toNat (v : Nat) : (sat32 v).toNat = min v 4294967295 := by
  simp only [sat32, BitVec.toNat_ofNat]
  omega

/-- The saturated count of a word is the word. -/
@[simp] theorem sat32_word (w : Word) : sat32 w.toNat = w := by
  apply BitVec.eq_of_toNat_eq
  have := w.isLt
  simp only [sat32_toNat]
  omega

/-- Counting on from a saturated count is counting from the count itself (R138). -/
theorem sat32_succ (n : Nat) : sat32 ((sat32 n).toNat + 1) = sat32 (n + 1) := by
  apply BitVec.eq_of_toNat_eq
  simp only [sat32_toNat]
  omega

/-- CUR.TMO is the 16-bit field, zero-extended (R105). -/
@[simp] theorem curTmo_toNat (e : Engine) : (curTmo e).toNat = (tmoField e.cmd).toNat := by
  have := (tmoField e.cmd).isLt
  simp only [curTmo, BitVec.truncate_eq_setWidth, BitVec.toNat_setWidth]
  omega

/-- CUR.UNB is 0 for ECHO (R105). -/
theorem curUnb_echo (e : Engine) (h : curOp e = 4) : curUnb e = false := by
  simp [curUnb, h]

/-! ## Acceptance -/

/-- Everything `accept` can do (R80, R81, R225). -/
theorem accept_cases (w : Word) (start : State → State) (s : State) :
    (s.cfg.legal = false ∧ accept w start s = .refused .illegalConfiguration) ∨
    (s.cfg.legal = true ∧ s.eng.busy = true ∧ accept w start s = .next s.overrun) ∨
    (s.cfg.legal = true ∧ s.eng.busy = false ∧ legalWord s.cfg.nLines w = true ∧
      accept w start s = .next (start (s.latch w))) ∨
    (s.cfg.legal = true ∧ s.eng.busy = false ∧ legalWord s.cfg.nLines w = false ∧
      accept w start s = .next ((s.latch w).endAtAcceptance .illegal)) := by
  unfold accept
  cases s.cfg.legal <;> cases s.eng.busy <;> cases legalWord s.cfg.nLines w <;> simp

/-- A command's word accepted while idle starts the command (R80). -/
theorem accept_start (w : Word) (start : State → State) (s : State) (hc : s.cfg.legal = true)
    (hb : s.eng.busy = false) (hl : legalWord s.cfg.nLines w = true) :
    accept w start s = .next (start (s.latch w)) := by
  simp [accept, hc, hb, hl]

/-! ## Phases -/

/-- Everything a wait phase can do at a tick (R133): match in time, time out, or count on. -/
theorem waitTick_cases (levels : Levels) (l : Line) (v : Level) (bounded : Bool) (inTime : Nat → Nat → Bool)
    (onMatch : State → State) (s : State) :
    (sample levels l = v ∧ (bounded = true → inTime s.eng.cnt.toNat (curTmo s.eng).toNat = true) ∧
      waitTick levels l v bounded inTime onMatch s = onMatch s) ∨
    (¬(sample levels l = v ∧ (bounded = true → inTime s.eng.cnt.toNat (curTmo s.eng).toNat = true)) ∧
      bounded = true ∧ (curTmo s.eng).toNat ≤ s.eng.cnt.toNat ∧
      waitTick levels l v bounded inTime onMatch s = s.timeOut) ∨
    (¬(sample levels l = v ∧ (bounded = true → inTime s.eng.cnt.toNat (curTmo s.eng).toNat = true)) ∧
      (bounded = true → s.eng.cnt.toNat < (curTmo s.eng).toNat) ∧
      waitTick levels l v bounded inTime onMatch s = s.countOn) := by
  unfold waitTick
  cases bounded <;> cases inTime s.eng.cnt.toNat (curTmo s.eng).toNat <;>
    by_cases hv : sample levels l = v <;>
    by_cases ht : (curTmo s.eng).toNat ≤ s.eng.cnt.toNat <;> simp_all

/-- Everything a delay phase can do at a tick (R134): count, or act and hand over. -/
theorem delayTick_cases (d : Nat) (action : State → State) (next : Phase) (s : State) :
    (min (s.eng.cnt.toNat + 1) 4294967295 = d ∧ delayTick d action next s = (action s.countOn).enterPhase next) ∨
    (min (s.eng.cnt.toNat + 1) 4294967295 ≠ d ∧ delayTick d action next s = s.countOn) := by
  simp only [delayTick, State.countOn_eng, sat32_toNat]
  split <;> simp_all

/-! ## Lines -/

/-- The request of a line after a drive (R18). -/
theorem drive_line (s : State) (l k : Line) (v : Level) :
    (s.drive l v).eng.lines[k.toNat] =
      if k = l then { s.eng.lines[l.toNat] with oe := true, out := v } else s.eng.lines[k.toNat] := by
  simp only [State.drive_eng, Vector.getElem_set]
  by_cases h : l.toNat = k.toNat
  · have hk : k = l := BitVec.eq_of_toNat_eq h.symm
    subst hk
    simp
  · have hk : k ≠ l := fun e => h (by rw [e])
    simp [h, hk]

/-- The request of a line after a release (R18). -/
theorem release_line (s : State) (l k : Line) (p : Pull) :
    (s.release l p).eng.lines[k.toNat] =
      if k = l then { s.eng.lines[l.toNat] with oe := false, pull := p } else s.eng.lines[k.toNat] := by
  simp only [State.release_eng, Vector.getElem_set]
  by_cases h : l.toNat = k.toNat
  · have hk : k = l := BitVec.eq_of_toNat_eq h.symm
    subst hk
    simp
  · have hk : k ≠ l := fun e => h (by rw [e])
    simp [h, hk]

/-! ## Selector lookup -/

/-- A selector found is that of its entry (R191). -/
theorem lookupSel_some (c : Config) (sel : BitVec 8) (i : Fin 3) (h : lookupSel c sel = some i) :
    (echoEntry c i).selcode = sel := by
  unfold lookupSel at h
  repeat' split at h
  all_goals first | (cases h; assumption) | cases h

/-- No entry has a selector that is not found (R191). -/
theorem lookupSel_none (c : Config) (sel : BitVec 8) (h : lookupSel c sel = none) (i : Fin 3) :
    (echoEntry c i).selcode ≠ sel := by
  unfold lookupSel at h
  repeat' split at h
  all_goals try cases h
  fin_cases i <;> assumption

end Sys2Proof.Machine
end

