-- ==== Sys2Proof/Laws/PerInstr.lean ====
section
/-! SUPPORT. Statements made for every instruction, one lemma a constructor (LAWS.json "per_instruction"). -/

namespace Sys2Proof.Laws.EncodesRow

open Sys2Proof

/-- The mnemonic a command has in `spec/opcode_table.json`. -/
def mnemonicOf : Instr → String
  | .waitlvl _ _ _ _ => "WAITLVL"
  | .pulse _ _ _ _ => "PULSE"
  | .dhtread _ _ _ _ _ => "DHTREAD"
  | .echo _ _ => "ECHO"

/-- A command's word matches its own row of the opcode map (R106). -/
def Statement (i : Instr) : Prop :=
  ∃ r ∈ opRows, r.mnemonic = mnemonicOf i ∧ rowMatches r (encode i) = true

theorem waitlvl (line : Line) (lvl : Level) (unb : Bool) (tmo : Timeout) :
    Statement (.waitlvl line lvl unb tmo) := by
  refine ⟨⟨"WAITLVL", 0x10000000, 0xF01F0000, true⟩, by simp [opRows], rfl, ?_⟩
  simp only [rowMatches, beq_iff_eq]
  apply BitVec.eq_of_getLsbD_eq
  intro i hi
  simp only [BitVec.getLsbD_and, encode, BitVec.getLsbD_append, BitVec.getLsbD_ofBool]
  interval_cases i <;> simp

theorem pulse (line : Line) (lvl : Level) (unb : Bool) (tmo : Timeout) :
    Statement (.pulse line lvl unb tmo) := by
  refine ⟨⟨"PULSE", 0x20000000, 0xF01F0000, true⟩, by simp [opRows], rfl, ?_⟩
  simp only [rowMatches, beq_iff_eq]
  apply BitVec.eq_of_getLsbD_eq
  intro i hi
  simp only [BitVec.getLsbD_and, encode, BitVec.getLsbD_append, BitVec.getLsbD_ofBool]
  interval_cases i <;> simp

theorem dhtread (line : Line) (unb chk : Bool) (fld : DhtField) (tmo : Timeout) :
    Statement (.dhtread line unb chk fld tmo) := by
  refine ⟨⟨"DHTREAD", 0x30000000, 0xF0470000, true⟩, by simp [opRows], rfl, ?_⟩
  simp only [rowMatches, beq_iff_eq]
  apply BitVec.eq_of_getLsbD_eq
  intro i hi
  simp only [BitVec.getLsbD_and, encode, BitVec.getLsbD_append, BitVec.getLsbD_ofBool]
  interval_cases i <;> simp

theorem echo (sel : BitVec 8) (tmo : Timeout) :
    Statement (.echo sel tmo) := by
  refine ⟨⟨"ECHO", 0x40000000, 0xF00F0000, false⟩, by simp [opRows], rfl, ?_⟩
  simp only [rowMatches, beq_iff_eq]
  apply BitVec.eq_of_getLsbD_eq
  intro i hi
  simp only [BitVec.getLsbD_and, encode, BitVec.getLsbD_append]
  interval_cases i <;> simp

end Sys2Proof.Laws.EncodesRow
end

