-- ==== Sys2Proof/Laws/Step.lean ====
section
/-! SUPPORT. What one step does, event by event, and how runs of ticks compose. -/

namespace Sys2Proof.Machine

/-! ## One step -/

/-- The next event performs (R131). -/
theorem step_event (s : State) (e : Event) (rest : List Event) (hc : s.cfg.legal = true) (hi : s.inputs = e :: rest) :
    step s = perform e { s with inputs := rest } := by
  simp [step, hc, hi]

/-- Where no event waits, the next one is a tick with free levels (R131, R136). -/
theorem step_free (s : State) (hc : s.cfg.legal = true) (hi : s.inputs = []) :
    step s = tick (Config.draw s.drawNo) { s with drawNo := s.drawNo + 1 } := by
  simp [step, hc, hi]

/-- An ordered host issues its program's accesses in their order (R85, D29). -/
theorem mayIssue_ordered (c : Config) (program issued : List Event) (h : c.hostOrderedIo = true) :
    mayIssue c program issued ↔ issued = program := by
  simp [mayIssue, h]

/-- A 32-bit access to a word offset of the window under the platform premise (R72, R89). -/
theorem hostAccess_legal (s : State) (off : Nat) (kind : AccessKind) (hu : s.cfg.windowUncached = true)
    (ho : off < 0x20) (ha : off % 4 = 0) :
    hostAccess (s.cfg.base + off) 4 kind s =
      match kind with
      | .read => .next (s.replyData (s.cfg.base + off) (readReg s.eng off))
      | .write w => writeReg off w s := by
  have h1 : s.cfg.base + off - s.cfg.base = off := by omega
  have h2 : s.cfg.base + off < s.cfg.base + 0x20 := by omega
  cases kind <;> simp [hostAccess, inWindow, accessLegal, hu, h1, h2, ha]

/-- Everything a host access can do (R71 to R73, R77). -/
theorem hostAccess_cases (addr size : Nat) (kind : AccessKind) (s : State) :
    (∃ r, hostAccess addr size kind s = .refused r) ∨
    hostAccess addr size kind s = .next s ∨
    hostAccess addr size kind s = .next (s.raiseBusError addr) ∨
    (kind = .read ∧ hostAccess addr size kind s = .next (s.replyData addr (readReg s.eng (addr - s.cfg.base)))) ∨
    (∃ w, kind = .write w ∧ hostAccess addr size kind s = writeReg (addr - s.cfg.base) w s) := by
  unfold hostAccess
  cases inWindow s.cfg addr <;> cases s.cfg.windowUncached <;> cases accessLegal s.cfg addr size <;> cases kind <;> simp

/-- Everything a legal write can do (R77). -/
theorem writeReg_cases (off : Nat) (w : Word) (s : State) :
    (off = 0 ∧ writeReg off w s = writeCmd w s) ∨ (off = 4 ∧ writeReg off w s = .next (writeStatus w s)) ∨
    (off ≠ 0 ∧ off ≠ 4 ∧ writeReg off w s = .next s) := by
  unfold writeReg
  split <;> simp_all

/-- A write to CMD is a command's own meaning, or the acceptance of an illegal word (R80). -/
theorem writeCmd_cases (w : Word) (s : State) :
    (∃ i, decode s.cfg.nLines w = .ok i ∧ writeCmd w s = exec i s) ∨
    (∃ r, decode s.cfg.nLines w = .error r ∧ writeCmd w s = accept w (fun s => s) s) := by
  unfold writeCmd
  cases h : decode s.cfg.nLines w with
  | ok i => exact .inl ⟨i, rfl, rfl⟩
  | error r => exact .inr ⟨r, rfl, rfl⟩

/-- A tick changes nothing while idle (R130). -/
theorem tick_idle (levels : Levels) (s : State) (hb : s.eng.busy = false) : tick levels s = .next s := by
  simp [tick, hb]

/-- The one tick that faults: BUSY = 1 with PHASE = IDLE. -/
theorem tick_answers (levels : Levels) (s : State) (h : s.eng.busy = true → s.eng.phase ≠ .idle) :
    ∃ t, tick levels s = .next t := by
  unfold tick
  split
  · rename_i hb
    have := h hb
    split <;> simp_all
  · exact ⟨s, rfl⟩

/-! ## Runs -/

/-- A tick is never refused. -/
theorem tick_not_refused (levels : Levels) (s : State) (r : Refusal) : tick levels s ≠ .refused r := by
  unfold tick
  cases s.eng.busy <;> cases s.eng.phase <;> simp

/-- A tick changes only the engine and the line events. -/
theorem tick_env (levels : Levels) (s t : State) (h : tick levels s = .next t) :
    t.cfg = s.cfg ∧ t.inputs = s.inputs ∧ t.drawNo = s.drawNo ∧ t.busLog = s.busLog := by
  unfold tick at h
  cases hb : s.eng.busy with
  | false => rw [hb] at h; cases h; simp
  | true =>
    rw [hb] at h
    simp only [if_true] at h
    cases hp : s.eng.phase <;> rw [hp] at h <;> simp only at h <;> cases h <;>
      simp only [tickWlWait, tickPmRise, tickPmHold, tickDhWakeLow, tickDhWakeHigh, tickDhHs1, tickDhHs2, tickDhHs3,
        tickDhBitRise, tickDhBitHold, tickEcTrigLow, tickEcTrigHigh, tickEcRise, tickEcHold, handshakeTick, riseTick,
        holdTick, waitTick, delayTick, bitEnd, endTrigger] <;>
      (repeat' split) <;> simp

/-- The step of a tick that is fed to the machine is the tick. -/
theorem step_feed (levels : Levels) (s : State) (hc : s.cfg.legal = true) : step (s.feed levels) = tick levels s := by
  rw [step_event (s.feed levels) (.tick levels) s.inputs hc rfl]
  rfl

/-- A run of a first tick and the rest. -/
theorem runTicks_cons (levels : Levels) (ls : List Levels) (s t : State) (hc : s.cfg.legal = true)
    (h : tick levels s = .next t) : runTicks (levels :: ls) s = runTicks ls t := by
  simp only [runTicks, step_feed levels s hc, h]

/-- A run goes on where a first run ended. -/
theorem runTicks_append (l1 l2 : List Levels) (s t : State) (h : runTicks l1 s = .next t) :
    runTicks (l1 ++ l2) s = runTicks l2 t := by
  induction l1 generalizing s with
  | nil => cases h; rfl
  | cons lv ls ih =>
    simp only [runTicks, List.cons_append] at h ⊢
    cases hs : step (s.feed lv) with
    | next u => rw [hs] at h; exact ih u h
    | fault r => rw [hs] at h; cases h
    | refused r => rw [hs] at h; cases h

/-- A run of no ticks. -/
@[simp] theorem runTicks_nil (s : State) : runTicks [] s = .next s := rfl

end Sys2Proof.Machine
end

