-- ==== Sys2Proof/Machine/Assembler.lean ====
section
/-! DEFINITION. The assembler of `30_encoding.md` R110 and R111 on its abstract syntax: which word an assembly line means,
and which lines it refuses. The text of a line (spaces, radix) is not modelled (log 24). -/

namespace Sys2Proof.Machine

/-- `<tmo>`: a decimal number, or `inf`, which means UNB = 1 and TMO = 0 (R110). -/
inductive AsmTmo where
  | us (n : Nat)
  | inf
  deriving DecidableEq, Repr

/-- One assembly line: the five forms of R110 and the six pseudo-instructions of R111. -/
inductive AsmLine where
  | waitlvl (line : Nat) (lvl : Level) (tmo : AsmTmo)
  | pulse (line : Nat) (lvl : Level) (tmo : AsmTmo)
  | dht (line : Nat) (fld : DhtField) (tmo : AsmTmo) (chk : Bool)
  | echo (sel : Nat) (tmo : Option AsmTmo)
  | word (w : Word)
  | waithi (line : Nat) (tmo : AsmTmo)
  | waitlo (line : Nat) (tmo : AsmTmo)
  | pulsehi (line : Nat) (tmo : AsmTmo)
  | pulselo (line : Nat) (tmo : AsmTmo)
  | dhtref (line : Nat) (fld : DhtField)
  | echoref (sel : Nat)
  deriving DecidableEq, Repr

/-- The expansion of a pseudo-instruction (R111); any other line is itself. -/
def expandPseudo : AsmLine → AsmLine
  | .waithi line tmo => .waitlvl line true tmo
  | .waitlo line tmo => .waitlvl line false tmo
  | .pulsehi line tmo => .pulse line true tmo
  | .pulselo line tmo => .pulse line false tmo
  | .dhtref line fld => .dht line fld .inf false
  | .echoref sel => .echo sel (some (.us echoRefTimeout))
  | .waitlvl line lvl tmo => .waitlvl line lvl tmo
  | .pulse line lvl tmo => .pulse line lvl tmo
  | .dht line fld tmo chk => .dht line fld tmo chk
  | .echo sel tmo => .echo sel tmo
  | .word w => .word w

/-- A line number, refused when it is not below NLINES (R110). -/
def asmLineNumber (nLines line : Nat) : Option Line :=
  if line < nLines ∧ line < 32 then some (BitVec.ofNat 5 line) else none

/-- UNB and TMO of a deadline, refused outside 0..65535 (R110). -/
def asmDeadline : AsmTmo → Option (Bool × Timeout)
  | .us n => if n ≤ 65535 then some (false, BitVec.ofNat 16 n) else none
  | .inf => some (true, 0)

/-- TMO of an `echo`: the reference deadline where none is written; `inf` is not accepted (R110). -/
def asmEchoDeadline : Option AsmTmo → Option Timeout
  | none => some (BitVec.ofNat 16 echoRefTimeout)
  | some (.us n) => if n ≤ 65535 then some (BitVec.ofNat 16 n) else none
  | some .inf => none

/-- SEL, refused outside 0..255 (R110). -/
def asmSelector (sel : Nat) : Option (BitVec 8) := if sel ≤ 255 then some (BitVec.ofNat 8 sel) else none

/-- The word of a line that is no pseudo-instruction, or none where the assembler refuses it (R110). Only `.word` gives an
illegal word. -/
def assembleCore (nLines : Nat) : AsmLine → Option Word
  | .waitlvl line lvl tmo => do
    let l ← asmLineNumber nLines line
    let t ← asmDeadline tmo
    return encode (.waitlvl l lvl t.1 t.2)
  | .pulse line lvl tmo => do
    let l ← asmLineNumber nLines line
    let t ← asmDeadline tmo
    return encode (.pulse l lvl t.1 t.2)
  | .dht line fld tmo chk => do
    let l ← asmLineNumber nLines line
    let t ← asmDeadline tmo
    return encode (.dhtread l t.1 chk fld t.2)
  | .echo sel tmo => do
    let k ← asmSelector sel
    let t ← asmEchoDeadline tmo
    return encode (.echo k t)
  | .word w => some w
  | .waithi _ _ => none
  | .waitlo _ _ => none
  | .pulsehi _ _ => none
  | .pulselo _ _ => none
  | .dhtref _ _ => none
  | .echoref _ => none

/-- The word a line means, pseudo-instructions expanded (R110, R111). -/
def assemble (nLines : Nat) (a : AsmLine) : Option Word := assembleCore nLines (expandPseudo a)

end Sys2Proof.Machine
end

