-- ==== Sys2Proof/Tests/Slice0.lean ====
section
/-! SUPPORT. Tests of the model. Expected values come from `95_test_vectors.md` and `30_encoding.md` R112, named at each test;
the second half has, for each statement with hypotheses, a concrete state and operands that meet all of them. -/

namespace Sys2Proof.Tests

open Sys2Proof Sys2Proof.Machine

/-! ## Well-formedness: each check refuses an ill-formed term -/

theorem test_wf_waitlvl_line : (Instr.waitlvl 16 true false 10).wf 16 = false := by decide
theorem test_wf_pulse_line : (Instr.pulse 31 true false 10).wf 16 = false := by decide
theorem test_wf_dht_line : (Instr.dhtread 31 true true .temperature 0).wf 16 = false := by decide
theorem test_wf_accepts_line15 : (Instr.waitlvl 15 true false 10).wf 16 = true := by decide
theorem test_cfg_excfg_legal : Config.excfg.legal = true := by decide
theorem test_cfg_no_lines : { Config.excfg with nLines := 0 }.legal = false := by decide
theorem test_cfg_too_many_lines : { Config.excfg with nLines := 33 }.legal = false := by decide
theorem test_cfg_base : { Config.excfg with base := 0x1004 }.legal = false := by decide
theorem test_cfg_same_selectors :
    { Config.excfg with echoTable := #v[⟨0, 8, 9⟩, ⟨1, 10, 11⟩, ⟨0, 13, 13⟩] }.legal = false := by decide
theorem test_cfg_trigger_line :
    { Config.excfg with echoTable := #v[⟨0, 16, 9⟩, ⟨1, 10, 11⟩, ⟨2, 13, 13⟩] }.legal = false := by decide
theorem test_cfg_echo_line :
    { Config.excfg with echoTable := #v[⟨0, 8, 9⟩, ⟨1, 10, 11⟩, ⟨2, 13, 16⟩] }.legal = false := by decide
theorem test_cfg_aux_line : { Config.excfg with auxLine := 16 }.legal = false := by decide
theorem test_cfg_aux_is_trigger : { Config.excfg with auxLine := 10 }.legal = false := by decide
theorem test_cfg_aux_is_echo : { Config.excfg with auxLine := 11 }.legal = false := by decide

/-! ## Decoding: words written out in §2.1 and R112 -/

theorem test_decode_waitlvl : decode 16 0x11C001F4 = .ok (.waitlvl 3 true false 500) := by decide
theorem test_decode_waitlvl_unb : decode 16 0x11E001F4 = .ok (.waitlvl 3 true true 500) := by decide
theorem test_decode_pulse : decode 16 0x22800064 = .ok (.pulse 5 false false 100) := by decide
theorem test_decode_dht : decode 16 0x321800C8 = .ok (.dhtread 4 false true .temperature 200) := by decide
theorem test_decode_dhtref : decode 16 0x32280000 = .ok (.dhtread 4 true false .temperature 0) := by decide
theorem test_decode_echo : decode 16 0x407061A8 = .ok (.echo 7 25000) := by decide
theorem test_decode_echo_ff : decode 16 0x4FF00000 = .ok (.echo 0xFF 0) := by decide
theorem test_decode_zero : decode 16 0 = .error .opcode := by decide
theorem test_decode_op5 : decode 16 0x50000000 = .error .opcode := by decide
theorem test_decode_op15 : decode 16 0xF0000000 = .error .opcode := by decide
theorem test_decode_reserved_l : decode 16 0x10010000 = .error .reservedBit := by decide
theorem test_decode_reserved_d22 : decode 16 0x32600000 = .error .reservedBit := by decide
theorem test_decode_reserved_d18 : decode 16 0x32240000 = .error .reservedBit := by decide
theorem test_decode_reserved_e : decode 16 0x400161A8 = .error .reservedBit := by decide
theorem test_decode_line16 : decode 16 0x1840000A = .error .lineRange := by decide
theorem test_decode_line16_of_17 : decode 17 0x1840000A = .ok (.waitlvl 16 true false 10) := by decide
theorem test_decode_line31 : decode 16 0x2FC0FFFF = .error .lineRange := by decide
theorem test_decode_short : decodeBytes 16 [0xF4, 0x01, 0xC0] = .error .truncated := by decide
theorem test_table_word : decodeTableWord 32 0x11C001F4 = some (.waitlvl 3 true false 500) := by decide

/-! ## Assembly: R112 -/

theorem test_asm_waitlvl : assemble 16 (.waitlvl 3 true (.us 500)) = some 0x11C001F4 := by decide
theorem test_asm_waitlo_inf : assemble 16 (.waitlo 3 .inf) = some 0x11A00000 := by decide
theorem test_asm_dht_chk : assemble 16 (.dht 4 .temperature (.us 200) true) = some 0x321800C8 := by decide
theorem test_asm_dhtref : assemble 16 (.dhtref 4 .humidity) = some 0x32200000 := by decide
theorem test_asm_echo_default : assemble 16 (.echo 1 none) = some 0x401061A8 := by decide
theorem test_asm_pulse : assemble 16 (.pulselo 5 (.us 100)) = some 0x22800064 := by decide
theorem test_asm_refuses_line : assemble 16 (.waitlvl 16 true (.us 10)) = none := by decide
theorem test_asm_refuses_echo_inf : assemble 16 (.echo 1 (some .inf)) = none := by decide

/-! ## Small states -/

/-- No line is high. -/
def low : Levels := Vector.replicate 32 false

/-- Only line l is high. -/
def only (l : Line) : Levels := low.set l.toNat true

/-- Line l at level v, the others low. -/
def at_ (l : Line) (v : Level) : Levels := if v then only l else low

/-- The command word w in progress in phase p. -/
def running (w : Word) (p : Phase) (cnt rise : Word) : State :=
  { State.reset with eng := { Engine.reset with cmd := w, busy := true, phase := p, cnt := cnt, rise := rise } }

/-- The next state of an outcome, or the state after reset. -/
def after (o : Host.Outcome State Fault Refusal) : State :=
  match o with
  | .next t => t
  | .fault _ => State.reset
  | .refused _ => State.reset

/-- s with the given events to come. -/
def queue (s : State) (es : List Event) : State := { s with inputs := es }

/-! ## One step of each command (§2.2 to §2.4) -/

/-- W3: the match at e = TMO wins. -/
theorem test_waitlvl_match_at_deadline :
    (let e := (after (tick (only 3) (running 0x11C001F4 .wlWait 500 0))).eng
     statusWord e = 0x00000112 ∧ e.result = 500 ∧ e.dur = 500) := by decide
/-- W4: no match through e = TMO. -/
theorem test_waitlvl_timeout :
    (let e := (after (tick low (running 0x11C001F4 .wlWait 500 0))).eng
     statusWord e = 0x00000122 ∧ e.result = 0xFFFFFFFE ∧ e.dur = 500) := by decide
/-- U1: rise at e = 5, end seen at e = 1005. -/
theorem test_pulse_end :
    (let e := (after (tick low (running 0x21C061A8 .pmHold 1005 5))).eng
     statusWord e = 0x00000312 ∧ e.result = 1000 ∧ e.dur = 1000) := by decide
/-- U6: a rise at e = TMO times out in PM_RISE. -/
theorem test_pulse_rise_at_deadline :
    (let e := (after (tick (only 3) (running 0x21C00064 .pmRise 100 0))).eng
     statusWord e = 0x00000222 ∧ e.result = 0xFFFFFFFE ∧ e.dur = 100) := by decide
/-- Y8: 41 samples high give a 1 bit, the first of the frame. -/
theorem test_dht_bit_41 :
    (let e := (after (tick low (running 0x32000064 .dhBitHold 91 50))).eng
     e.sr = 1 ∧ e.bitcnt = 1 ∧ e.dur = 41 ∧ e.phase = .dhBitRise ∧ e.cnt = 0) := by decide
/-- Y4: the 40th bit of F_B = 52/0/23/0/0 with CHK = 1: CHECKSUM, RESULT the temperature. -/
theorem test_dht_checksum :
    (let s := running 0x321800C8 .dhBitHold 76 50
     let s := { s with eng.bitcnt := 39, eng.sr := 0x34001700#40 <<< 7 }
     let e := (after (tick low s)).eng
     statusWord e = 0x00028A42 ∧ e.result = 23 ∧ e.dur = 26 ∧ frame0 e = 0x34001700 ∧ frame1 e = 0) := by decide
/-- E2: the acceptance of an ECHO on the aux entry, from its word. -/
theorem test_echo_aux_setup :
    (let t := after (step (State.reset.withFetchWord 32 0x401061A8))
     t.lineEvents = [.drive 12 true, .drive 10 false, .release 11 .none] ∧ t.eng.curIdx = 1 ∧
       statusWord t.eng = 0x00000B01) := by decide
/-- E3: the end of the trigger pulse on a same-pin entry. -/
theorem test_echo_same_pin :
    (let s := running 0x402061A8 .ecTrigHigh 9 0
     let t := after (tick low { s with eng.curIdx := 2 })
     t.lineEvents = [.drive 13 false, .release 13 .none] ∧ t.eng.phase = .ecRise) := by decide

/-! ## Host interface (§2.5) -/

/-- H1. -/
theorem test_h1_zero_word :
    (let e := (after (step (State.reset.withFetchWord 32 0))).eng
     e.cmd = 0 ∧ statusWord e = 0x00000052 ∧ e.result = 0xFFFFFFFD ∧ e.dur = 0) := by decide
/-- E4: an unsupported selector. -/
theorem test_e4_unsupported :
    (let t := after (step (State.reset.withFetchWord 32 0x407061A8))
     statusWord t.eng = 0x00000032 ∧ t.eng.result = 0xFFFFFFFF ∧ t.lineEvents = []) := by decide
/-- E12: illegal before unsupported. -/
theorem test_e12_illegal_first :
    statusWord (after (step (State.reset.withFetchWord 32 0x407161A8))).eng = 0x00000052 := by decide
/-- H4: STATUS of a DHTREAD in its wake. -/
theorem test_h4_status :
    (after (step (queue (running 0x320003E8 .dhWakeLow 100 0) [hostRead Config.excfg 4]))).busLog =
      [.data 0x1004 0x00000401] := by decide
/-- H5: a CMD write while busy is dropped. -/
theorem test_h5_dropped :
    (let t := after (step (queue (running 0x320003E8 .dhWakeLow 100 0) [hostWrite Config.excfg 0 0x400061A8]))
     statusWord t.eng = 0x00000405 ∧ t.eng.cmd = 0x320003E8 ∧ t.lineEvents = []) := by decide
/-- H9: a 2-byte read at offset 0x06. -/
theorem test_h9_bus_error :
    (after (step (queue State.reset [.access 0x1006 2 .read]))).busLog = [.busError 0x1006] := by decide
/-- H10: a reset during the wake. -/
theorem test_h10_reset :
    (after (step (queue (running 0x320003E8 .dhWakeLow 100 0) [.reset]))).eng = Engine.reset := by decide
/-- R85: a host that is not ordered is answered like any other. -/
theorem test_unordered_host_read :
    (after (step { State.reset with cfg.hostOrderedIo := false, inputs := [.access 0x1004 4 .read] })).busLog =
      [.data 0x1004 0] := by decide
/-- EXCFG with line 4 wired to pin 70 and line 3 to none (R254, D44). -/
def rewired : Config :=
  { Config.excfg with lineRouting := (Config.excfg.lineRouting.set 4 (some 70)).set 3 none }
/-- R254 (1): the wake's first action reaches the pin its line is wired to, and that pin alone. -/
theorem test_pin_of_dhtread :
    (let t := after (step ({ State.reset with cfg := rewired }.withFetchWord 32 0x32200000))
     t.pinEvents = [(70, .drive 4 false)] ∧ t.pinRequests 70 = [⟨true, false, .none⟩] ∧ t.pinRequests 4 = []) := by decide
/-- R254 (1): a line samples the pin it is wired to. -/
theorem test_levels_of_pins :
    (let levels := levelsOfPins rewired (fun p => p == 70) low
     sample levels 4 = true ∧ sample levels 5 = false ∧ sample levels 3 = false) := by decide
/-- X2: the source's fold. -/
theorem test_fold : ([false, false, true, true, false, true, false, false].foldl shiftIn 0) = 52 := by decide
/-- §2.4: conversion vectors. -/
theorem test_distance : distance 1764 = 29988 ∧ distance 65535 = 1114095 := by decide

/-! ## Witnesses: states and operands that meet a statement's hypotheses -/

theorem witness_roundtrip : (Instr.waitlvl 3 true false 500).wf 16 = true := by decide
theorem witness_decoded : decode 16 0x11C001F4 = .ok (.waitlvl 3 true false 500) := by decide

theorem witness_step_runs :
    ∃ s : State, s.covered = true ∧ s.inputs = hostWrite s.cfg 0 0x11C001F4 :: [] ∧
      decode s.cfg.nLines 0x11C001F4 = .ok (.waitlvl 3 true false 500) :=
  ⟨queue State.reset [hostWrite Config.excfg 0 0x11C001F4], by decide, rfl, by decide⟩

theorem witness_illegal_word :
    ∃ s : State, s.covered = true ∧ s.eng.busy = false ∧ s.inputs = hostWrite s.cfg 0 0 :: [] ∧
      legalWord s.cfg.nLines 0 = false :=
  ⟨queue State.reset [hostWrite Config.excfg 0 0], by decide, rfl, rfl, by decide⟩

theorem witness_busy_write :
    ∃ s : State, s.covered = true ∧ s.eng.busy = true ∧ s.inputs = hostWrite s.cfg 0 0x400061A8 :: [] :=
  ⟨queue (running 0x320003E8 .dhWakeLow 100 0) [hostWrite Config.excfg 0 0x400061A8], by decide, rfl, rfl⟩

theorem witness_status_write :
    ∃ s : State, s.covered = true ∧ s.inputs = hostWrite s.cfg 4 0xFFFFFFFF :: [] :=
  ⟨queue State.reset [hostWrite Config.excfg 4 0xFFFFFFFF], by decide, rfl⟩

theorem test_covered : State.reset.covered = true := by decide

/-- Each of the six offsets, the first and last included. -/
theorem witness_ignored_writes (off : Nat) (_h : off ∈ [0x08, 0x0C, 0x10, 0x14, 0x18, 0x1C]) :
    ∃ s : State, s.covered = true ∧ s.inputs = hostWrite s.cfg off 123 :: [] :=
  ⟨queue State.reset [hostWrite Config.excfg off 123], test_covered, rfl⟩

/-- Each of the eight offsets. -/
theorem witness_reads (off : Nat) (_h : off ∈ [0x00, 0x04, 0x08, 0x0C, 0x10, 0x14, 0x18, 0x1C]) :
    ∃ s : State, s.covered = true ∧ s.inputs = hostRead s.cfg off :: [] :=
  ⟨queue State.reset [hostRead Config.excfg off], test_covered, rfl⟩

/-- A program of a STATUS write and a read, on an ordered host. -/
theorem witness_program_order :
    ∃ (s t : State) (issued : List Event), s.covered = true ∧ s.cfg.hostOrderedIo = true ∧
      mayIssue s.cfg [hostWrite s.cfg 4 6, hostRead s.cfg 4] issued ∧ s.inputs = issued ++ [] ∧
      hostAccess (s.cfg.base + 4) 4 (.write 6) { s with inputs := [hostRead s.cfg 4] } = .next t ∧
      (4, statusWord t.eng) ∈ registerTable t.eng :=
  ⟨queue State.reset [hostWrite Config.excfg 4 6, hostRead Config.excfg 4], _, _, test_covered, rfl, rfl, rfl, rfl,
    .tail _ (.head _)⟩

/-- Both ways to be malformed, at the last byte and at the last word of the window. -/
theorem witness_malformed :
    (∃ s : State, s.covered = true ∧ s.cfg.base ≤ 0x101F ∧ 0x101F < s.cfg.base + 0x20 ∧
      (0x101F - s.cfg.base) % 4 ≠ 0 ∧ s.inputs = .access 0x101F 4 (.write 1) :: []) ∧
    (∃ s : State, s.covered = true ∧ s.cfg.base ≤ 0x101C ∧ 0x101C < s.cfg.base + 0x20 ∧
      s.inputs = .access 0x101C 2 .read :: []) :=
  ⟨⟨queue State.reset [.access 0x101F 4 (.write 1)], by decide, by decide, by decide, by decide, rfl⟩,
   ⟨queue State.reset [.access 0x101C 2 .read], by decide, by decide, by decide, rfl⟩⟩

/-- Just below and just above the window. -/
theorem witness_outside :
    (∃ s : State, s.cfg.legal = true ∧ 0xFFF < s.cfg.base ∧ s.inputs = .access 0xFFF 4 .read :: []) ∧
    (∃ s : State, s.cfg.legal = true ∧ s.cfg.base + 0x20 ≤ 0x1020 ∧ s.inputs = .access 0x1020 4 .read :: []) :=
  ⟨⟨queue State.reset [.access 0xFFF 4 .read], by decide, by decide, rfl⟩,
   ⟨queue State.reset [.access 0x1020 4 .read], by decide, by decide, rfl⟩⟩

theorem witness_uncovered :
    (∃ s : State, s.cfg.legal = false) ∧
    (∃ s : State, s.cfg.legal = true ∧ s.cfg.windowUncached = false ∧ s.cfg.base ≤ 0x1000 ∧
      0x1000 < s.cfg.base + 0x20 ∧ s.inputs = .access 0x1000 4 .read :: []) :=
  ⟨⟨{ State.reset with cfg.nLines := 0 }, by decide⟩,
   ⟨{ State.reset with cfg.windowUncached := false, inputs := [.access 0x1000 4 .read] },
     by decide, by decide, by decide, by decide, rfl⟩⟩

/-- The acceptances of the four commands: idle, legal, the highest line. -/
theorem witness_acceptance :
    ∃ s : State, s.cfg.legal = true ∧ s.eng.busy = false ∧ (15 : Line).toNat < s.cfg.nLines ∧
      (∀ k : Fin 3, (echoEntry s.cfg k).selcode ≠ 0x07) ∧ (echoEntry s.cfg 2).selcode = 0x02 ∧
      (echoEntry s.cfg s.cfg.auxEntry).selcode = 0x01 ∧ (Instr.pulse 16 true false 0).wf s.cfg.nLines = false :=
  ⟨State.reset, by decide, by decide, by decide, by decide, by decide, by decide, by decide⟩

theorem witness_exec_next : ∃ t, exec (.waitlvl 3 true false 500) State.reset = .next t := ⟨_, rfl⟩
theorem witness_tick_next : ∃ t, tick low (running 0x11C001F4 .wlWait 0 0) = .next t := ⟨_, rfl⟩
theorem witness_step_next : ∃ t, step (queue State.reset [.tick low]) = .next t := ⟨_, rfl⟩
theorem witness_reset_event : ∃ t, step (queue State.reset [.reset]) = .next t := ⟨_, rfl⟩

theorem witness_idle_tick :
    ∃ s : State, s.cfg.legal = true ∧ s.eng.busy = false ∧ s.inputs = [] := ⟨State.reset, by decide, rfl, rfl⟩

/-- A bounded wait at its deadline, where the clauses of the tick statements meet. -/
theorem witness_wait_tick :
    ∃ s : State, s.eng.busy = true ∧ s.eng.phase = .wlWait ∧
      (curUnb s.eng = false → s.eng.cnt.toNat ≤ (curTmo s.eng).toNat) ∧ s.eng.cnt = curTmo s.eng :=
  ⟨running 0x11C001F4 .wlWait 500 0, by decide, by decide, by decide, by decide⟩

theorem witness_pulse_ticks :
    (∃ s : State, s.eng.busy = true ∧ s.eng.phase = .pmRise) ∧
    (∃ s : State, s.eng.busy = true ∧ s.eng.phase = .pmHold ∧
      (curUnb s.eng = false → s.eng.cnt.toNat ≤ (curTmo s.eng).toNat)) :=
  ⟨⟨running 0x21C00064 .pmRise 100 0, by decide, by decide⟩,
   ⟨running 0x21C00064 .pmHold 100 50, by decide, by decide, by decide⟩⟩

/-- Each delay phase at its last tick. -/
theorem witness_delay_ticks (p : Phase) (_h : phaseKind p = .delay) :
    ∃ s : State, s.eng.busy = true ∧ s.eng.cnt.toNat < 4294967295 ∧ s.eng.phase = p ∧
      s.eng.cnt.toNat + 1 = delayLength p := by
  cases p <;> first | (exact absurd _h (by decide)) | skip
  · exact ⟨running 0x32200000 .dhWakeLow 17999 0, by decide, by decide, rfl, by decide⟩
  · exact ⟨running 0x32200000 .dhWakeHigh 39 0, by decide, by decide, rfl, by decide⟩
  · exact ⟨running 0x400061A8 .ecTrigLow 1 0, by decide, by decide, rfl, by decide⟩
  · exact ⟨running 0x400061A8 .ecTrigHigh 9 0, by decide, by decide, rfl, by decide⟩

/-- Each handshake phase. -/
theorem witness_handshake (p next : Phase) (v : Level)
    (_h : (p, v, next) ∈ [(Phase.dhHs1, false, Phase.dhHs2), (.dhHs2, true, .dhHs3), (.dhHs3, false, .dhBitRise)]) :
    ∃ s : State, s.eng.busy = true ∧ s.eng.phase = p ∧
      (curUnb s.eng = false → s.eng.cnt.toNat ≤ (curTmo s.eng).toNat) :=
  by
  refine ⟨running 0x320003E8 p 1000 0, rfl, rfl, fun _ => ?_⟩
  rw [curTmo_toNat]
  exact (by decide : (1000#32).toNat ≤ (tmoField 0x320003E8#32).toNat)

theorem witness_bit_ticks :
    (∃ s : State, s.eng.busy = true ∧ s.eng.phase = .dhBitRise) ∧
    (∃ s : State, s.eng.busy = true ∧ s.eng.phase = .dhBitHold ∧
      (curUnb s.eng = false → s.eng.cnt.toNat ≤ (curTmo s.eng).toNat)) :=
  ⟨⟨running 0x32000064 .dhBitRise 0 0, by decide, by decide⟩,
   ⟨running 0x32000064 .dhBitHold 100 50, by decide, by decide, by decide⟩⟩

/-- The end of the 40th bit, with the bit and the frame it completes. -/
theorem witness_last_bit :
    ∃ (s : State) (d : Word) (sr : BitVec 40), s.eng.busy = true ∧ s.eng.phase = .dhBitHold ∧
      (curUnb s.eng = false → s.eng.cnt.toNat ≤ (curTmo s.eng).toNat) ∧ d = s.eng.cnt - s.eng.rise ∧
      sr = (s.eng.sr <<< 1) ||| (if 40 < d.toNat then 1 else 0) ∧ (s.eng.bitcnt + 1).toNat = 40 :=
  ⟨{ running 0x32000064 .dhBitHold 100 59 with eng.bitcnt := 39 }, _, _, rfl, rfl, by decide, rfl, rfl, by decide⟩

theorem witness_echo_ticks :
    (∃ s : State, s.eng.busy = true ∧ s.eng.phase = .ecRise) ∧
    (∃ s : State, s.eng.busy = true ∧ s.eng.phase = .ecHold ∧ s.eng.cnt.toNat ≤ (curTmo s.eng).toNat) :=
  ⟨⟨running 0x400061A8 .ecRise 0 0, by decide, by decide⟩,
   ⟨running 0x400061A8 .ecHold 25000 0, by decide, by decide, by decide⟩⟩

theorem witness_frame_bits : (List.replicate 40 true).length = 40 := by decide
theorem witness_distance : (65535 : Word).toNat ≤ 65535 := by decide

/-- A WAITLVL in progress meets the invariant; so does what it leaves. -/
theorem witness_inv : (running 0x11C001F4 .wlWait 7 0).Inv := by
  refine ⟨by decide, ⟨?_, ?_, ?_, ?_, ?_⟩, ⟨?_, ?_, ?_, ?_, ?_, ?_, ?_, ?_, ?_⟩⟩ <;> decide

theorem witness_record : RecordInv Config.excfg (running 0x11C001F4 .wlWait 7 0).eng := by
  refine ⟨?_, ?_, ?_, ?_, ?_, ?_, ?_, ?_, ?_⟩ <;> decide

/-- The state W1 leaves. -/
def waited : State :=
  { State.reset with eng := { Engine.reset with
      cmd := 0x11C001F4, done := true, res := .ok, phase := .wlWait, result := 7, dur := 7, cnt := 7 } }

theorem witness_sentinels :
    waited.Inv ∧ RecordInv waited.cfg waited.eng ∧ waited.eng.res = .ok ∧ curUnb waited.eng = false ∧
      curOp waited.eng = 1 := by
  refine ⟨⟨by decide, ⟨?_, ?_, ?_, ?_, ?_⟩, ⟨?_, ?_, ?_, ?_, ?_, ?_, ?_, ?_, ?_⟩⟩,
    ⟨?_, ?_, ?_, ?_, ?_, ?_, ?_, ?_, ?_⟩, ?_, ?_, ?_⟩ <;> decide

theorem witness_busy_access :
    ∃ s t : State, s.eng.busy = true ∧ s.inputs = .access 0x1004 4 (.write 6) :: [] ∧ step s = .next t :=
  ⟨queue (running 0x11C001F4 .wlWait 7 0) [.access 0x1004 4 (.write 6)], _, by decide, rfl, rfl⟩

/-- The samples of line l that spell the levels of a wave. -/
def spell (l : Line) (wave : List Level) : List Levels := wave.map (at_ l)

theorem samples_spell (l : Line) (wave : List Level) : samplesOf (spell l wave) l = wave := by
  have h : ∀ v : Level, sample (at_ l v) l = v := by
    intro v
    cases v <;> simp [sample, at_, only, low]
  simp only [samplesOf, spell, List.map_map]
  exact (List.map_congr_left fun v _ => h v).trans (List.map_id wave)

/-- WAITLVL matched at its deadline, and unbounded. -/
theorem witness_waitlvl_run : samplesOf (spell 3 (waitWave true 500)) 3 = waitWave true 500 ∧
    500 ≤ (500 : Timeout).toNat := ⟨samples_spell _ _, by decide⟩

theorem witness_waitlvl_timeout :
    samplesOf (spell 3 (List.replicate ((0 : Timeout).toNat + 1) false)) 3 =
      List.replicate ((0 : Timeout).toNat + 1) (!true) := samples_spell _ _

/-- PULSE with the longest pulse its deadline allows. -/
theorem witness_pulse_run : samplesOf (spell 3 (pulseWave true 0 100)) 3 = pulseWave true 0 100 ∧
    0 + 100 ≤ (100 : Timeout).toNat := ⟨samples_spell _ _, by decide⟩

theorem witness_echo_run :
    ∃ (s : State) (pre ls : List Levels), s.cfg.legal = true ∧ s.eng.busy = false ∧
      (echoEntry s.cfg 2).selcode = 2 ∧ pre.length = 12 ∧
      samplesOf ls (echoEntry s.cfg 2).echol = pulseWave true 0 500 ∧ 0 + 500 ≤ (500 : Timeout).toNat :=
  ⟨State.reset, List.replicate 12 low, spell 13 (pulseWave true 0 500), by decide, rfl, by decide, rfl,
    samples_spell _ _, by decide⟩

/-- No echo at all, a rise at the deadline, and an echo that outlasts it. -/
theorem witness_no_echo (r : Nat) (_h : r ∈ [101, 100, 99]) :
    ∃ (s : State) (pre ls : List Levels), s.cfg.legal = true ∧ s.eng.busy = false ∧
      (echoEntry s.cfg 0).selcode = 0 ∧ pre.length = 12 ∧ r ≤ (100 : Timeout).toNat + 1 ∧
      samplesOf ls (echoEntry s.cfg 0).echol =
        List.replicate r false ++ List.replicate ((100 : Timeout).toNat + 1 - r) true := by
  refine ⟨State.reset, List.replicate 12 low,
    spell 9 (List.replicate r false ++ List.replicate ((100 : Timeout).toNat + 1 - r) true), by decide, rfl, by decide,
    rfl, ?_, samples_spell _ _⟩
  simp only [List.mem_cons, List.not_mem_nil, or_false] at _h
  have h100 : (100 : Timeout).toNat = 100 := by decide
  omega

/-- The wake at each of its boundaries. -/
theorem witness_wake (n : Nat) (_h : n ∈ [17999, 18000, 18039, 18040]) :
    ∃ ls : List Levels, ls.length = n ∧ ls.length ≤ 18040 := by
  refine ⟨List.replicate n low, List.length_replicate, ?_⟩
  simp only [List.mem_cons, List.not_mem_nil, or_false] at _h
  rw [List.length_replicate]
  omega

/-- The fastest frame (Y11): every bit one sample high. -/
def fastBits : List (Nat × Nat) := List.replicate 40 (0, 1)

theorem fastBits_each (b : Nat × Nat) (h : b ∈ fastBits) : b = (0, 1) := List.eq_of_mem_replicate h

theorem fastBits_one (b : Nat × Nat) (h : b ∈ fastBits) : 1 ≤ b.2 ∧ b.1 + b.2 ≤ 1 := by
  obtain rfl := fastBits_each b h
  decide

/-- A prelude of any length exists. -/
theorem prelude_exists (n : Nat) : ∃ pre : List Levels, pre.length = n := ⟨List.replicate n low, List.length_replicate⟩

/-- Y11: TMO = 1. -/
theorem witness_frame :
    ∃ (bits : List (Nat × Nat)) (pre ls : List Levels), bits.length = 40 ∧ pre.length = 18040 ∧
      (∀ b ∈ bits, 1 ≤ b.2 ∧ b.1 + b.2 ≤ 4294967295) ∧ (∀ b ∈ bits, b.1 + b.2 ≤ (1 : Timeout).toNat) ∧
      samplesOf ls 4 = waitWave false 1 ++ waitWave true 1 ++ waitWave false 1 ++ frameWave bits := by
  obtain ⟨pre, hpre⟩ := prelude_exists 18040
  have h1 : (1 : Timeout).toNat = 1 := by decide
  refine ⟨fastBits, pre, _, by decide, hpre, fun b hb => ⟨(fastBits_one b hb).1, ?_⟩, fun b hb => ?_, samples_spell 4 _⟩
  · have := (fastBits_one b hb).2
    omega
  · rw [h1]
    exact (fastBits_one b hb).2

/-- W9: a line that never reaches the level. -/
theorem witness_unbounded :
    ∃ (s : State) (ls : List Levels), s.cfg.legal = true ∧ s.eng.busy = true ∧ phaseKind s.eng.phase = .wait ∧
      phaseOp s.eng.phase = curOp s.eng ∧ curUnb s.eng = true ∧ ls.length = 2 ∧
      (∀ lv ∈ ls, sample lv (curLine s.eng) ≠ awaited s.eng) := by
  refine ⟨running 0x11E00000 .wlWait 0 0, [low, low], by decide, by decide, by decide, by decide, by decide, rfl, ?_⟩
  intro lv h
  have hl : lv = low := by simpa using h
  subst hl
  decide

/-- Each of the four commands, bounded, with as many ticks as its latest finish. -/
theorem witness_bounded_run (i : Instr)
    (_h : i ∈ [.waitlvl 3 true false 1, .pulse 3 true false 1, .dhtread 4 false true .humidity 1, .echo 1 1]) :
    ∃ (s : State) (ls : List Levels), s.cfg.legal = true ∧ s.eng.busy = false ∧ i.wf s.cfg.nLines = true ∧
      boundedCommand i = true ∧ ls.length = latestFinish i := by
  obtain ⟨ls, hls⟩ := prelude_exists (latestFinish i)
  refine ⟨State.reset, ls, test_cfg_excfg_legal, rfl, ?_, ?_, hls⟩ <;>
    · simp only [List.mem_cons, List.not_mem_nil, or_false] at _h
      rcases _h with rfl | rfl | rfl | rfl <;> decide

theorem witness_early_result :
    ∃ s1 t : State, exec (.waitlvl 3 true false 500) State.reset = .next s1 ∧
      runTicks [only 3] s1 = .next t ∧ t.eng.res = .ok := ⟨_, _, rfl, rfl, by decide⟩

theorem witness_aux_run :
    ∃ t u : State, (echoEntry State.reset.cfg State.reset.cfg.auxEntry).selcode = 1 ∧
      exec (.echo 1 25000) State.reset = .next t ∧ runTicks [low, low] t = .next u := ⟨_, _, by decide, rfl, rfl⟩

end Sys2Proof.Tests
end

/-! Proofs of the statements about the model's scope (`00_scope.md` R11, R18): which configurations are refused, and what
the two line primitives do. -/

namespace Sys2Proof.Machine

/-! ## Refusals -/

/-- R11, log 4. -/
theorem step_of_illegal_config (s : State) (hc : s.cfg.legal = false) : step s = .refused .illegalConfiguration := by
  simp [step, hc]

theorem accept_of_illegal_config (w : Word) (start : State → State) (s : State) (hc : s.cfg.legal = false) :
    accept w start s = .refused .illegalConfiguration := by
  simp [accept, hc]

/-- What each command does with the latched state when its word is accepted (R141, R143, R161, R191). -/
def startOf : Instr → State → State
  | .waitlvl _ _ _ _ => fun s => s.startPhase .wlWait
  | .pulse _ _ _ _ => fun s => s.startPhase .pmRise
  | .dhtread line _ _ _ _ => acceptDht line
  | .echo sel _ => acceptEcho sel

/-- Every command is the acceptance of its own word (R80). -/
theorem exec_eq_accept (i : Instr) (s : State) : exec i s = accept (encode i) (startOf i) s := by
  cases i <;> rfl

theorem exec_of_illegal_config (i : Instr) (s : State) (hc : s.cfg.legal = false) :
    exec i s = .refused .illegalConfiguration := by
  rw [exec_eq_accept, accept_of_illegal_config _ _ s hc]

/-- R71. -/
theorem inWindow_iff (c : Config) (addr : Nat) : inWindow c addr = true ↔ c.base ≤ addr ∧ addr < c.base + 0x20 := by
  simp [inWindow]

/-- I13, log 5: any access to the window, legal in its form or not. -/
theorem hostAccess_of_windowCached (addr size : Nat) (kind : AccessKind) (s : State)
    (hw : inWindow s.cfg addr = true) (hu : s.cfg.windowUncached = false) :
    hostAccess addr size kind s = .refused .windowCached := by
  simp [hostAccess, hw, hu]

/-- Settles O17: the configuration is looked at before the event, and WINDOW_UNCACHED before the access's form. -/
theorem uncoveredConfigurationsAreRefused : Obligations.UncoveredConfigurationsAreRefused := by
  refine ⟨step_of_illegal_config, exec_of_illegal_config, ?_⟩
  intro s rest addr size kind hc hu hlo hhi hi
  rw [step_event s _ rest hc hi]
  exact hostAccess_of_windowCached addr size kind _ ((inWindow_iff s.cfg addr).2 ⟨hlo, hhi⟩) hu

/-! ## Line events at the pins -/

/-- One more line event is one more event at the pin its line is wired to, and none where it is wired to no pin
(R254 (1), log 28). -/
theorem pinEvents_of_lineEvents_append (s t : State) (e : LineEvent) (hc : t.cfg = s.cfg)
    (he : t.lineEvents = s.lineEvents ++ [e]) :
    t.pinEvents = s.pinEvents ++ ((pinOf s.cfg (eventLine e)).map (fun p => (p, e))).toList := by
  rw [State.pinEvents, State.pinEvents, hc, he, List.filterMap_append]
  cases hp : pinOf s.cfg (eventLine e) <;> simp [hp]

theorem drive_pinEvents (s : State) (l : Line) (v : Level) :
    (s.drive l v).pinEvents = s.pinEvents ++ ((pinOf s.cfg l).map (fun p => (p, LineEvent.drive l v))).toList :=
  pinEvents_of_lineEvents_append s _ (.drive l v) (State.drive_cfg s l v) (State.drive_lineEvents s l v)

theorem release_pinEvents (s : State) (l : Line) (p : Pull) :
    (s.release l p).pinEvents = s.pinEvents ++ ((pinOf s.cfg l).map (fun q => (q, LineEvent.release l p))).toList :=
  pinEvents_of_lineEvents_append s _ (.release l p) (State.release_cfg s l p) (State.release_lineEvents s l p)

/-- Settles O29: the request of each line by `drive_line` and `release_line`, the events at the pins by
`drive_pinEvents` and `release_pinEvents`. -/
theorem linePrimitives : Obligations.LinePrimitives := by
  intro s l k v p
  refine ⟨State.drive_lineEvents s l v, State.release_lineEvents s l p, ?_, ?_, rfl, rfl, ?_, ?_⟩
  · rw [drive_line]
    split
    case isTrue h => rw [h]
    case isFalse => rfl
  · rw [release_line]
    split
    case isTrue h => rw [h]
    case isFalse => rfl
  · intro pin hpin
    simp [drive_pinEvents, release_pinEvents, pinOf, hpin]
  · intro hpin
    simp [drive_pinEvents, release_pinEvents, pinOf, hpin]

end Sys2Proof.Machine

/-! What one step, one tick and one host access can do, said once each: the statements about the
state (`10_state.md`) that follow are read off these cases. -/

namespace Sys2Proof.Machine

/-! ## What one step can do -/

/-- s with its next event taken from the list, or one more free sample drawn where there is none (R131, log 1,
log 2). -/
def State.taken (s : State) : State :=
  match s.inputs with
  | _ :: rest => { s with inputs := rest }
  | [] => { s with drawNo := s.drawNo + 1 }

@[simp] theorem State.taken_cfg (s : State) : s.taken.cfg = s.cfg := by
  unfold State.taken
  split <;> rfl

@[simp] theorem State.taken_eng (s : State) : s.taken.eng = s.eng := by
  unfold State.taken
  split <;> rfl

@[simp] theorem State.taken_lineEvents (s : State) : s.taken.lineEvents = s.lineEvents := by
  unfold State.taken
  split <;> rfl

/-- A legal configuration's step is the tick, the access or the reset that comes next, on the state it is taken from. -/
theorem step_eq_taken (s : State) (hc : s.cfg.legal = true) :
    step s = match s.inputs with
      | e :: _ => perform e s.taken
      | [] => tick (Config.draw s.drawNo) s.taken := by
  simp only [step, hc, State.taken]
  cases s.inputs <;> rfl

/-- Everything a step that answers can have done: a tick, a host access, or a reset (R131). -/
theorem step_next_cases (s t : State) (h : step s = .next t) :
    s.cfg.legal = true ∧
    ((s.inputs.head? ≠ some .reset ∧ ∃ levels, tick levels s.taken = .next t) ∨
     (s.inputs.head? ≠ some .reset ∧ ∃ addr size kind, hostAccess addr size kind s.taken = .next t) ∨
     (s.inputs.head? = some .reset ∧ t = s.taken.hardReset)) := by
  cases hc : s.cfg.legal with
  | false => simp [step_of_illegal_config s hc] at h
  | true =>
    refine ⟨rfl, ?_⟩
    rw [step_eq_taken s hc] at h
    match hi : s.inputs, h with
    | [], h => exact .inl ⟨by simp, _, h⟩
    | .tick levels :: _, h => exact .inl ⟨by simp, levels, h⟩
    | .access addr size kind :: _, h => exact .inr (.inl ⟨by simp, addr, size, kind, h⟩)
    | .reset :: _, h =>
      cases h
      exact .inr (.inr ⟨rfl, rfl⟩)

/-! ## What one tick can do -/

/-- The rule of one phase of the running command (R130, R34); IDLE has none. -/
def phaseTick (levels : Levels) : Phase → State → State
  | .idle => id
  | .wlWait => tickWlWait levels
  | .pmRise => tickPmRise levels
  | .pmHold => tickPmHold levels
  | .dhWakeLow => tickDhWakeLow
  | .dhWakeHigh => tickDhWakeHigh
  | .dhHs1 => tickDhHs1 levels
  | .dhHs2 => tickDhHs2 levels
  | .dhHs3 => tickDhHs3 levels
  | .dhBitRise => tickDhBitRise levels
  | .dhBitHold => tickDhBitHold levels
  | .ecTrigLow => tickEcTrigLow
  | .ecTrigHigh => tickEcTrigHigh
  | .ecRise => tickEcRise levels
  | .ecHold => tickEcHold levels

/-- A tick while busy is the rule of the phase; in IDLE it faults (R130, log 12). -/
theorem tick_busy (levels : Levels) (s : State) (hb : s.eng.busy = true) :
    tick levels s =
      if s.eng.phase = .idle then .fault .busyWithoutPhase else .next (phaseTick levels s.eng.phase s) := by
  simp only [tick, hb, if_true]
  cases s.eng.phase <;> rfl

/-- Everything a tick that answers can have done (R130). -/
theorem tick_next_cases (levels : Levels) (s t : State) (h : tick levels s = .next t) :
    (s.eng.busy = false ∧ t = s) ∨
    (s.eng.busy = true ∧ s.eng.phase ≠ .idle ∧ t = phaseTick levels s.eng.phase s) := by
  cases hb : s.eng.busy with
  | false =>
    rw [tick_idle levels s hb] at h
    cases h
    exact .inl ⟨rfl, rfl⟩
  | true =>
    rw [tick_busy levels s hb] at h
    split at h
    case isTrue => cases h
    case isFalse hp =>
      cases h
      exact .inr ⟨rfl, hp, rfl⟩

/-! ## What one host access can do -/

theorem decodeLined_isOk (n : Nat) (w : Word) (clear : Bool) (i : Instr) :
    (decodeLined n w clear i).isOk = (clear && decide ((lineField w).toNat < n)) := by
  cases clear <;> by_cases hline : (lineField w).toNat < n <;>
    simp [decodeLined, hline, Except.isOk, Except.toBool]

/-- The decoder gives a command exactly where R108's predicate holds (R107, R113). -/
theorem decode_isOk (n : Nat) (w : Word) : (decode n w).isOk = legalWord n w := by
  by_cases h1 : opField w = 1
  · simp [decode, legalWord, h1, decodeLined_isOk, reservedClearL]
  by_cases h2 : opField w = 2
  · simp [decode, legalWord, h2, decodeLined_isOk, reservedClearL]
  by_cases h3 : opField w = 3
  · have hbit : w.extractLsb' 22 1 = BitVec.ofBool w[22] := by
      ext i hi
      simp [show i = 0 by omega]
    have h22 : (w.extractLsb' 22 1 == 0#1) = !w[22] := by
      rw [hbit]
      cases w[22] <;> rfl
    simp [decode, legalWord, h3, decodeLined_isOk, reservedClearD, h22]
  by_cases h4 : opField w = 4
  · cases hr : reservedClearE w <;> simp_all [decode, legalWord, reservedClearE, Except.isOk, Except.toBool]
  · have hno : (opField w).toNat ≠ 1 ∧ (opField w).toNat ≠ 2 ∧ (opField w).toNat ≠ 3 ∧ (opField w).toNat ≠ 4 := by
      refine ⟨?_, ?_, ?_, ?_⟩ <;> bv_omega
    simp only [decode, h1, h2, h3, h4, if_false, legalWord]
    split <;> simp_all [Except.isOk, Except.toBool]

/-- The decoder rejects only words that are not legal (R107, R108). -/
theorem legalWord_of_decode_error (n : Nat) (w : Word) (r : Reject) (h : decode n w = .error r) :
    legalWord n w = false := by
  rw [← decode_isOk, h]
  rfl
/-- Everything an acceptance that answers can have done (R80, R81). -/
theorem accept_next_cases (w : Word) (start : State → State) (s t : State) (h : accept w start s = .next t) :
    (s.eng.busy = true ∧ t = s.overrun) ∨
    (s.eng.busy = false ∧ legalWord s.cfg.nLines w = false ∧ t = (s.latch w).endAtAcceptance .illegal) ∨
    (s.eng.busy = false ∧ legalWord s.cfg.nLines w = true ∧ t = start (s.latch w)) := by
  obtain ⟨_, ha⟩ | ⟨_, hb, ha⟩ | ⟨_, hb, hl, ha⟩ | ⟨_, hb, hl, ha⟩ := accept_cases w start s <;>
    rw [ha] at h <;> cases h
  · exact .inl ⟨hb, rfl⟩
  · exact .inr (.inr ⟨hb, hl, rfl⟩)
  · exact .inr (.inl ⟨hb, hl, rfl⟩)

/-- Everything a write to CMD that answers can have done (R80, R81, R107). -/
theorem writeCmd_next_cases (w : Word) (s t : State) (h : writeCmd w s = .next t) :
    (s.eng.busy = true ∧ t = s.overrun) ∨
    (s.eng.busy = false ∧ ∃ w, legalWord s.cfg.nLines w = false ∧ t = (s.latch w).endAtAcceptance .illegal) ∨
    (s.eng.busy = false ∧ ∃ i, i.wf s.cfg.nLines = true ∧ t = startOf i (s.latch (encode i))) := by
  obtain ⟨i, _, hw⟩ | ⟨r, hd, hw⟩ := writeCmd_cases w s <;> rw [hw] at h
  · rw [exec_eq_accept] at h
    obtain ⟨hb, rfl⟩ | ⟨hb, hl, rfl⟩ | ⟨hb, hl, rfl⟩ := accept_next_cases _ _ s t h
    · exact .inl ⟨hb, rfl⟩
    · exact .inr (.inl ⟨hb, _, hl, rfl⟩)
    · exact .inr (.inr ⟨hb, i, by rw [← legalWord_encode, hl], rfl⟩)
  · obtain ⟨hb, rfl⟩ | ⟨hb, hl, rfl⟩ | ⟨_, hl, _⟩ := accept_next_cases _ _ s t h
    · exact .inl ⟨hb, rfl⟩
    · exact .inr (.inl ⟨hb, w, hl, rfl⟩)
    · simp [legalWord_of_decode_error _ w r hd] at hl

/-- Everything an access that answers can have done: it left the engine, wrote STATUS, was dropped while busy, or was an
illegal word or a command accepted while idle (R73, R77 to R82). -/
theorem hostAccess_next_cases (addr size : Nat) (kind : AccessKind) (s t : State)
    (h : hostAccess addr size kind s = .next t) :
    (∃ log, t = { s with busLog := log }) ∨ (∃ w, t = writeStatus w s) ∨
    (s.eng.busy = true ∧ t = s.overrun) ∨
    (s.eng.busy = false ∧ ∃ w, legalWord s.cfg.nLines w = false ∧ t = (s.latch w).endAtAcceptance .illegal) ∨
    (s.eng.busy = false ∧ ∃ i, i.wf s.cfg.nLines = true ∧ t = startOf i (s.latch (encode i))) := by
  obtain ⟨r, ha⟩ | ha | ha | ⟨_, ha⟩ | ⟨w, _, ha⟩ := hostAccess_cases addr size kind s <;> rw [ha] at h
  · cases h
  · cases h
    exact .inl ⟨s.busLog, rfl⟩
  · cases h
    exact .inl ⟨_, rfl⟩
  · cases h
    exact .inl ⟨_, rfl⟩
  · obtain ⟨_, hw⟩ | ⟨_, hw⟩ | ⟨_, _, hw⟩ := writeReg_cases (addr - s.cfg.base) w s <;> rw [hw] at h
    · exact .inr (.inr (writeCmd_next_cases w s t h))
    · cases h
      exact .inr (.inl ⟨w, rfl⟩)
    · cases h
      exact .inl ⟨s.busLog, rfl⟩

end Sys2Proof.Machine

/-! Proofs of the statements about the STATUS word and the reset values (`10_state.md` R36, R57). -/

namespace Sys2Proof.Machine

/-! ## The STATUS word -/

/-- R36: the one-bit fields; bit 3 has none. -/
theorem statusWord_flags (e : Engine) :
    (statusWord e).getLsbD 0 = e.busy ∧ (statusWord e).getLsbD 1 = e.done ∧ (statusWord e).getLsbD 2 = e.ovr ∧
      (statusWord e).getLsbD 3 = false := by
  refine ⟨?_, ?_, ?_, ?_⟩ <;> simp only [statusWord, BitVec.getLsbD_append] <;> simp

/-- R36: the wider fields; bits 31:18 have none. -/
theorem statusWord_fields (e : Engine) :
    (statusWord e).extractLsb' 4 4 = e.res.code ∧ (statusWord e).extractLsb' 8 4 = e.phase.code ∧
      (statusWord e).extractLsb' 12 6 = e.bitcnt ∧ (statusWord e).extractLsb' 18 14 = 0 := by
  refine ⟨?_, ?_, ?_, ?_⟩ <;>
  · ext i hi
    simp only [statusWord, BitVec.getElem_extractLsb', BitVec.getLsbD_append]
    interval_cases i <;> simp

/-- Settles O13: the fields one by one, the codes by evaluation. -/
theorem statusWordLayout : Obligations.StatusWordLayout := by
  refine ⟨fun e => ?_, by decide, by decide⟩
  obtain ⟨hbusy, hdone, hovr, h3⟩ := statusWord_flags e
  exact ⟨hbusy, hdone, hovr, h3, statusWord_fields e⟩

/-! ## Reset -/

theorem Engine.reset_line (l : Line) : Engine.reset.lines[l.toNat] = LineReq.released := by
  simp [Engine.reset]

/-- Settles O46: R57's values are the fields of `Engine.reset`; the lines by `Engine.reset_line`. -/
theorem resetValues : Obligations.ResetValues :=
  ⟨rfl, rfl, rfl, rfl, rfl, rfl, rfl, rfl, rfl, rfl, rfl, rfl, rfl, rfl, rfl, rfl, Engine.reset_line, rfl⟩

/-- An engine at its reset values meets the invariant under any legal configuration (R57, R58). -/
theorem State.hardReset_inv (s : State) (hc : s.cfg.legal = true) : s.hardReset.Inv where
  config := hc
  stated := by constructor <;> simp [Engine.reset]
  sequencer := by constructor <;> simp [Engine.reset_line] <;> simp [Engine.reset]

/-- The outcome record says nothing while there is no result (R223). -/
theorem recordInv_of_no_result (c : Config) (e : Engine) (h : e.res = .none) : RecordInv c e := by
  constructor <;> simp [h]

/-- Settles O39: the state after reset is one the reset input gives, and has no result. -/
theorem resetMeetsInvariants : Obligations.ResetMeetsInvariants :=
  ⟨State.hardReset_inv State.reset (by decide), recordInv_of_no_result _ _ rfl⟩

end Sys2Proof.Machine

/-! Proof that every step keeps the invariant of R58: each operation first, then each host access and each phase. -/

namespace Sys2Proof.Machine

/-! ## The invariant under each operation -/

section
variable {s : State}

/-- The invariant speaks of the configuration and the engine alone. -/
theorem State.Inv.of_eng {t : State} (hi : s.Inv) (hc : t.cfg = s.cfg) (he : t.eng = s.eng) : t.Inv :=
  ⟨hc ▸ hi.config, he ▸ hi.stated, hc ▸ he ▸ hi.sequencer⟩

theorem State.Inv.overrun (hi : s.Inv) : s.overrun.Inv :=
  ⟨hi.config, { hi.stated with }, { hi.sequencer with }⟩

/-- W1C can only clear DONE, which is 0 while busy (R82, R58). -/
theorem State.Inv.writeStatus (hi : s.Inv) (w : Word) : (writeStatus w s).Inv where
  config := hi.config
  stated := { hi.stated with
    busy_record := fun hb => by
      obtain ⟨hd, hr, hp⟩ := hi.stated.busy_record hb
      exact ⟨by simp [hd], hr, hp⟩
    done_record := fun hb hd => hi.stated.done_record hb (by simp at hd; exact hd.2) }
  sequencer := { hi.sequencer with }

/-! ### Lines -/

/-- Only the requests of real lines may change (R50). -/
theorem State.Inv.setLine (hi : s.Inv) {l : Line} (hl : l.toNat < s.cfg.nLines) (r : LineReq) (evs : List LineEvent) :
    State.Inv { s with eng.lines := s.eng.lines.set l.toNat r, lineEvents := evs } where
  config := hi.config
  stated := { hi.stated with }
  sequencer := { hi.sequencer with
    only_lines := fun k hk => by
      have hne : l.toNat ≠ k.toNat := by
        have : s.cfg.nLines ≤ k.toNat := hk
        omega
      rw [Vector.getElem_set_ne _ _ hne]
      exact hi.sequencer.only_lines k hk }

theorem State.Inv.drive (hi : s.Inv) {l : Line} (hl : l.toNat < s.cfg.nLines) (v : Level) : (s.drive l v).Inv :=
  hi.setLine hl _ _

theorem State.Inv.release (hi : s.Inv) {l : Line} (hl : l.toNat < s.cfg.nLines) (p : Pull) : (s.release l p).Inv :=
  hi.setLine hl _ _

/-! ### Finishing -/

/-- R140: a command that ends with any result code, whatever RESULT, DUR and PHASE it leaves. -/
theorem State.Inv.finished (hi : s.Inv) (code : ResCode) (hcode : code ≠ .none) (v d : Word) (p : Phase) :
    State.Inv { s with
      eng.busy := false, eng.done := true, eng.res := code, eng.result := v, eng.dur := d, eng.phase := p } where
  config := hi.config
  stated := { hi.stated with
    busy_record := nofun
    done_record := fun _ _ => hcode
    wait_count := nofun }
  sequencer := { hi.sequencer with
    busy_legal := nofun
    busy_phase := nofun
    busy_bitcnt := nofun
    busy_result := nofun
    delay_count := nofun
    hold_count := nofun
    echo_index := nofun }

/-! ### Counting and entering phases -/

/-- R133, R134, R138: one more tick, where the deadline or the length of the phase is not yet reached. -/
theorem State.Inv.countOn (hi : s.Inv)
    (hwait : phaseKind s.eng.phase = .wait → curUnb s.eng = false → s.eng.cnt.toNat < (curTmo s.eng).toNat)
    (hdelay : phaseKind s.eng.phase = .delay → s.eng.cnt.toNat + 1 < delayLength s.eng.phase) : s.countOn.Inv where
  config := hi.config
  stated := { hi.stated with
    wait_count := fun _ hk hu => by
      have := hwait hk hu
      simp only [State.countOn_eng, sat32_toNat]
      exact le_trans (min_le_left _ _) this }
  sequencer := { hi.sequencer with
    delay_count := fun _ hk => by
      have := hdelay hk
      simp only [State.countOn_eng, sat32_toNat]
      exact lt_of_le_of_lt (min_le_left _ _) this
    hold_count := fun hb hh => by
      simp only [State.countOn_eng]
      obtain h | ⟨hr, hc⟩ := hi.sequencer.hold_count hb hh
      · left
        have := s.eng.cnt.isLt
        rw [sat32_toNat]
        omega
      · right
        rw [hr, hc]
        exact ⟨rfl, rfl⟩ }

theorem delayLength_pos (p : Phase) (h : phaseKind p = .delay) : 0 < delayLength p := by
  cases p <;> simp [phaseKind] at h <;> decide

/-- No phase of a command is IDLE: no legal command has opcode 0 (R107). -/
theorem phase_ne_idle {n : Nat} {e : Engine} {p : Phase} (hl : legalWord n e.cmd = true) (hp : phaseOp p = curOp e) :
    p ≠ .idle := by
  rintro rfl
  simp [legalWord, show opField e.cmd = 0 from hp.symm] at hl

/-- R58: what is shown of a running command, whichever of its phases it is in. -/
theorem State.Inv.running_record (hi : s.Inv) (hb : s.eng.busy = true) {p : Phase}
    (hp : phaseOp p = phaseOp s.eng.phase) : s.eng.done = false ∧ s.eng.res = .none ∧ p ≠ .idle := by
  obtain ⟨hd, hr, _⟩ := hi.stated.busy_record hb
  exact ⟨hd, hr, phase_ne_idle (hi.sequencer.busy_legal hb) (hp.trans (hi.sequencer.busy_phase hb))⟩

/-- A running command goes on to another of its phases with CNT = 0 (R133, R134). -/
theorem State.Inv.enterPhase (hi : s.Inv) (hb : s.eng.busy = true) {p : Phase} (hp : phaseOp p = phaseOp s.eng.phase)
    (hh : holdPhase p = false) : (s.enterPhase p).Inv where
  config := hi.config
  stated := { hi.stated with
    busy_record := fun _ => hi.running_record hb hp
    wait_count := fun _ _ _ => Nat.zero_le _ }
  sequencer := { hi.sequencer with
    busy_phase := fun _ => hp.trans (hi.sequencer.busy_phase hb)
    delay_count := fun _ hk => delayLength_pos p hk
    hold_count := fun _ hk => by simp [hh] at hk }

/-- R137: the hold phase counts on from the rise, and the deadline was not yet reached. -/
theorem State.Inv.riseSeen (hi : s.Inv) (hb : s.eng.busy = true) {hold : Phase}
    (hp : phaseOp hold = phaseOp s.eng.phase) (hk : phaseKind hold = .wait)
    (hdl : curUnb s.eng = false → s.eng.cnt.toNat < (curTmo s.eng).toNat) : (s.riseSeen hold).Inv where
  config := hi.config
  stated := { hi.stated with
    busy_record := fun _ => hi.running_record hb hp
    wait_count := fun _ _ hu => by
      have := hdl hu
      simp only [State.riseSeen_eng, sat32_toNat]
      exact le_trans (min_le_left _ _) this }
  sequencer := { hi.sequencer with
    busy_phase := fun _ => hp.trans (hi.sequencer.busy_phase hb)
    delay_count := fun _ hd => by simp [hk] at hd
    hold_count := fun _ _ => by
      have := s.eng.cnt.isLt
      simp only [State.riseSeen_eng, sat32_toNat]
      by_cases hmax : s.eng.cnt.toNat = 4294967295
      · right
        have hc : s.eng.cnt = 0xFFFFFFFF := BitVec.eq_of_toNat_eq hmax
        rw [hc]
        exact ⟨rfl, rfl⟩
      · left
        omega }

/-! ### Acceptance -/

/-- The word of a command latched while idle: SR must be 0 already where the word is a legal DHTREAD (R80, R161). -/
theorem State.Inv.latch (hi : s.Inv) (hb : s.eng.busy = false) (w : Word)
    (hsr : opField w = 3 → legalWord s.cfg.nLines w = true → s.eng.sr = 0) : (s.latch w).Inv where
  config := hi.config
  stated := by constructor <;> simp [hb]
  sequencer := { hi.sequencer with
    busy_legal := by simp [hb]
    busy_phase := by simp [hb]
    busy_bitcnt := by simp [hb]
    busy_result := by simp [hb]
    delay_count := by simp [hb]
    hold_count := by simp [hb]
    echo_index := by simp [hb]
    frame_bits := fun hop hl => by
      simp [hsr hop hl] }

/-- An engine with SR cleared (R161). -/
theorem State.Inv.clearSr (hi : s.Inv) : State.Inv { s with eng.sr := 0 } where
  config := hi.config
  stated := { hi.stated with }
  sequencer := { hi.sequencer with frame_bits := fun _ _ => by simp }

/-- The running ECHO's entry is looked up while idle (R191). -/
theorem State.Inv.setIdx (hi : s.Inv) (hb : s.eng.busy = false) (i : Fin 3) : State.Inv { s with eng.curIdx := i } where
  config := hi.config
  stated := { hi.stated with }
  sequencer := { hi.sequencer with echo_index := by simp [hb] }

/-- A legal command just latched starts in a phase of its own (R80). -/
theorem State.Inv.startPhase (hi : s.Inv) {p : Phase} (hd : s.eng.done = false) (hr : s.eng.res = .none)
    (hv : s.eng.result = 0) (hn : s.eng.bitcnt = 0) (hl : legalWord s.cfg.nLines s.eng.cmd = true)
    (hp : phaseOp p = curOp s.eng) (hh : holdPhase p = false)
    (hx : curOp s.eng = 4 → (echoEntry s.cfg s.eng.curIdx).selcode = curSel s.eng) : (s.startPhase p).Inv where
  config := hi.config
  stated := { hi.stated with
    busy_record := fun _ => ⟨hd, hr, phase_ne_idle hl hp⟩
    done_record := nofun
    wait_count := fun _ _ _ => Nat.zero_le _ }
  sequencer := { hi.sequencer with
    busy_legal := fun _ => hl
    busy_phase := fun _ => hp
    busy_bitcnt := fun _ => by simp [hn, frameBits]
    busy_result := fun _ => hv
    delay_count := fun _ hk => delayLength_pos p hk
    hold_count := fun _ hk => by simp [hh] at hk
    echo_index := fun _ => hx }

/-- A command that ends at acceptance (R107, R191). -/
theorem State.Inv.endAtAcceptance (hi : s.Inv) (code : ResCode) (hcode : code ≠ .none) :
    (s.endAtAcceptance code).Inv :=
  hi.finished code hcode _ _ _

/-! ### Bits -/

/-- A shifted-in bit doubles the bound of SR (R166). -/
theorem shiftIn_lt (sr : BitVec 40) (b : Bool) (n : Nat) (h : sr.toNat < 2 ^ n) :
    (shiftIn sr b).toNat < 2 ^ (n + 1) := by
  have hshift : (sr <<< 1).toNat < 2 ^ (n + 1) := by
    rw [BitVec.toNat_shiftLeft, Nat.shiftLeft_eq, Nat.pow_succ]
    exact lt_of_le_of_lt (Nat.mod_le _ _) (by omega)
  have hbit : ((BitVec.ofBool b).zeroExtend 40).toNat < 2 ^ (n + 1) := by
    cases b <;> simp
  rw [shiftIn, BitVec.toNat_or]
  exact Nat.or_lt_two_pow hshift hbit

theorem bitcnt_succ_toNat (e : Engine) (h : e.bitcnt.toNat < frameBits) :
    (e.bitcnt + 1).toNat = e.bitcnt.toNat + 1 := by
  have : e.bitcnt.toNat < 40 := h
  bv_omega

/-- A DHTREAD's next bit stored (R166); a running one has not stored its last bit. -/
theorem State.Inv.storeBit (hi : s.Inv) (hop : curOp s.eng = 3) (hn : s.eng.bitcnt.toNat < frameBits)
    (hlast : s.eng.busy = true → s.eng.bitcnt.toNat + 1 < frameBits) (d : Word) : (storeBit d s).Inv where
  config := hi.config
  stated := { hi.stated with
    bitcnt_bound := by
      rw [storeBit_eng, bitcnt_succ_toNat _ hn]
      exact hn
    bitcnt_command := fun _ => hop }
  sequencer := { hi.sequencer with
    busy_bitcnt := fun hb => by
      rw [storeBit_eng, bitcnt_succ_toNat _ hn]
      exact hlast hb
    frame_bits := fun _ hl => by
      rw [storeBit_eng, bitcnt_succ_toNat _ hn]
      exact shiftIn_lt _ _ _ (hi.sequencer.frame_bits hop hl) }

end

/-! ## The invariant under a host access -/

/-- R8 to R11: the lines of the table and AUX_LINE are lines. -/
theorem Config.legal_lines {c : Config} (h : c.legal = true) (i : Fin 3) :
    (echoEntry c i).trig.toNat < c.nLines ∧ (echoEntry c i).echol.toNat < c.nLines ∧ c.auxLine.toNat < c.nLines := by
  simp only [Config.legal, Config.entryLegal, Config.lineLegal, Bool.and_eq_true, decide_eq_true_eq] at h
  obtain ⟨⟨⟨⟨⟨⟨_, h0⟩, h1⟩, h2⟩, haux⟩, _⟩, _⟩ := h
  fin_cases i
  · exact ⟨h0.1, h0.2, haux⟩
  · exact ⟨h1.1, h1.2, haux⟩
  · exact ⟨h2.1, h2.2, haux⟩

theorem setupLines_eng (i : Fin 3) (s : State) :
    (setupLines i s).eng = { s.eng with lines := (setupLines i s).eng.lines } := by
  unfold setupLines
  split <;> split <;> rfl

theorem setupLines_cfg (i : Fin 3) (s : State) : (setupLines i s).cfg = s.cfg := by
  unfold setupLines
  split <;> split <;> rfl

section
variable {s : State}

/-- The setup of an ECHO acts on real lines only (R10, R11, R192). -/
theorem State.Inv.setupLines (hi : s.Inv) (i : Fin 3) : (setupLines i s).Inv := by
  obtain ⟨htrig, hechol, haux⟩ := Config.legal_lines hi.config i
  unfold Machine.setupLines
  split <;> split
  · exact ((hi.drive haux true).drive htrig false).release hechol .none
  · exact (hi.drive haux true).drive htrig false
  · exact (hi.drive htrig false).release hechol .none
  · exact hi.drive htrig false

/-- Every command starts from the invariant in a state that meets it (R80, R141, R143, R161, R191, R192). -/
theorem State.Inv.start (hi : s.Inv) (hb : s.eng.busy = false) (i : Instr) (hwf : i.wf s.cfg.nLines = true) :
    (startOf i (s.latch (encode i))).Inv := by
  have hl : legalWord s.cfg.nLines (encode i) = true := by rw [legalWord_encode, hwf]
  cases i with
  | waitlvl line lvl unb tmo =>
    exact (hi.latch hb _ (by simp)).startPhase rfl rfl rfl rfl hl (by simp [phaseOp, curOp]) rfl (by simp [curOp])
  | pulse line lvl unb tmo =>
    exact (hi.latch hb _ (by simp)).startPhase rfl rfl rfl rfl hl (by simp [phaseOp, curOp]) rfl (by simp [curOp])
  | dhtread line unb chk fld tmo =>
    have hline : line.toNat < s.cfg.nLines := by simpa [Instr.wf] using hwf
    exact ((hi.clearSr.latch hb _ (by simp)).drive hline false).startPhase rfl rfl rfl rfl hl
      (by simp [phaseOp, curOp]) rfl (by simp [curOp])
  | echo sel tmo =>
    have hlatch := hi.latch hb (encode (.echo sel tmo)) (by simp)
    simp only [startOf, acceptEcho]
    split
    case h_1 => exact hlatch.endAtAcceptance _ (by decide)
    case h_2 k hk =>
      have hset := (hlatch.setIdx hb k).setupLines k
      refine hset.startPhase ?_ ?_ ?_ ?_ ?_ ?_ rfl ?_ <;> rw [setupLines_eng]
      · rfl
      · rfl
      · rfl
      · rfl
      · rw [setupLines_cfg]
        exact hl
      · simp [phaseOp, curOp]
      · rw [setupLines_cfg]
        simpa [curSel] using fun _ => lookupSel_some _ _ _ hk

theorem State.Inv.hostAccess {t : State} (hi : s.Inv) (addr size : Nat) (kind : AccessKind)
    (h : hostAccess addr size kind s = .next t) : t.Inv := by
  obtain ⟨log, rfl⟩ | ⟨w, rfl⟩ | ⟨_, rfl⟩ | ⟨hb, w, hl, rfl⟩ | ⟨hb, i, hwf, rfl⟩ :=
    hostAccess_next_cases addr size kind s t h
  · exact hi.of_eng rfl rfl
  · exact hi.writeStatus w
  · exact hi.overrun
  · exact (hi.latch hb w (by simp [hl])).endAtAcceptance _ (by decide)
  · exact hi.start hb i hwf

/-! ## The invariant under a tick -/

/-- R133: a timeout finishes and a tick without a match counts on towards the deadline; the match is the caller's. -/
theorem State.Inv.waitTick (hi : s.Inv) {p : Phase} (hp : s.eng.phase = p) (hk : phaseKind p = .wait)
    {levels : Levels} {l : Line} {v bounded : Bool} {inTime : Nat → Nat → Bool} {onMatch : State → State}
    (hbd : bounded = !curUnb s.eng)
    (hm : (bounded = true → inTime s.eng.cnt.toNat (curTmo s.eng).toNat = true) → (onMatch s).Inv) :
    (waitTick levels l v bounded inTime onMatch s).Inv := by
  obtain ⟨_, ht, he⟩ | ⟨_, _, _, he⟩ | ⟨_, hlt, he⟩ := waitTick_cases levels l v bounded inTime onMatch s <;>
    rw [he]
  · exact hm ht
  · exact hi.finished .timeout (by decide) _ _ _
  · exact hi.countOn (fun _ hu => hlt (by simp [hbd, hu])) (fun hd => by simp [hp, hk] at hd)

theorem State.Inv.riseTick (hi : s.Inv) (hb : s.eng.busy = true) {p : Phase} (hp : s.eng.phase = p)
    (hk : phaseKind p = .wait) {levels : Levels} {l : Line} {v bounded : Bool} (hbd : bounded = !curUnb s.eng)
    (hold : Phase) (hop : phaseOp hold = phaseOp p) (hkh : phaseKind hold = .wait) :
    (riseTick levels l v bounded hold s).Inv :=
  hi.waitTick hp hk hbd fun ht => hi.riseSeen hb (hp ▸ hop) hkh fun hu => by
    simpa [beforeDeadline] using ht (by simp [hbd, hu])

theorem State.Inv.handshakeTick (hi : s.Inv) (hb : s.eng.busy = true) {p : Phase} (hp : s.eng.phase = p)
    (hk : phaseKind p = .wait) {levels : Levels} {v : Level} (next : Phase) (hop : phaseOp next = phaseOp p)
    (hh : holdPhase next = false) : (handshakeTick levels v next s).Inv :=
  hi.waitTick hp hk rfl fun _ => hi.enterPhase hb (hp ▸ hop) hh

theorem delayLength_le (p : Phase) : delayLength p ≤ 18000 := by
  cases p <;> decide

/-- R134: the action at a delay's end is on the lines alone, whatever CNT, and leaves the invariant. -/
theorem State.Inv.delayTick (hi : s.Inv) (hb : s.eng.busy = true) {p : Phase} (hp : s.eng.phase = p)
    (hk : phaseKind p = .delay) {action : State → State} (next : Phase) (hop : phaseOp next = phaseOp p)
    (hh : holdPhase next = false) (hact : (action s).Inv)
    (heng : (action s).eng = { s.eng with lines := (action s).eng.lines })
    (hcnt : (action s.countOn).enterPhase next = (action s).enterPhase next) :
    (delayTick (delayLength p) action next s).Inv := by
  obtain ⟨_, he⟩ | ⟨hne, he⟩ := delayTick_cases (delayLength p) action next s <;> rw [he]
  · rw [hcnt]
    exact hact.enterPhase (by rw [heng]; exact hb) (by rw [heng, hp, hop]) hh
  · refine hi.countOn (fun hw => by simp [hp, hk] at hw) fun hd => ?_
    have hlt := hi.sequencer.delay_count hb hd
    have hle := delayLength_le p
    rw [hp] at hlt ⊢
    omega

/-- The line of a running DHTREAD is a line (R107). -/
theorem State.Inv.curLine_lt (hi : s.Inv) (hb : s.eng.busy = true) (hop : curOp s.eng = 3) :
    (curLine s.eng).toNat < s.cfg.nLines := by
  have hl := hi.sequencer.busy_legal hb
  simp only [legalWord, show opField s.eng.cmd = 3 from hop] at hl
  simp at hl
  exact hl.2

theorem State.Inv.endTrigger (hi : s.Inv) : (endTrigger s).Inv := by
  obtain ⟨htrig, hechol, _⟩ := Config.legal_lines hi.config s.eng.curIdx
  unfold Machine.endTrigger
  split
  · exact (hi.drive htrig false).release hechol .none
  · exact hi.drive htrig false

theorem endTrigger_eng (s : State) : (endTrigger s).eng = { s.eng with lines := (endTrigger s).eng.lines } := by
  unfold endTrigger
  split <;> rfl

/-- The action at the end of the trigger does not look at the count that entering EC_RISE clears (R194). -/
theorem endTrigger_countOn_enterPhase (s : State) (p : Phase) :
    (endTrigger s.countOn).enterPhase p = (endTrigger s).enterPhase p := by
  simp only [endTrigger, apply_ite (State.enterPhase · p)]
  rfl

theorem State.Inv.bitEnd (hi : s.Inv) (hb : s.eng.busy = true) (hp : s.eng.phase = .dhBitHold) (d : Word) :
    (bitEnd d s).Inv := by
  have hop : curOp s.eng = 3 := by rw [← hi.sequencer.busy_phase hb, hp]; rfl
  have hn := hi.sequencer.busy_bitcnt hb
  unfold Machine.bitEnd
  simp only
  split
  case isTrue hlast =>
    have hcode : (extractAndFinish (Machine.storeBit d s)).eng.res ≠ .none := by
      rw [extractAndFinish_eng]
      simp only
      split <;> decide
    have hstopped := hi.finished _ hcode (extractAndFinish (Machine.storeBit d s)).eng.result s.eng.dur s.eng.phase
    exact (hstopped.storeBit hop hn nofun d).of_eng rfl (by rw [extractAndFinish_eng]; rfl)
  case isFalse hlast =>
    rw [storeBit_eng, bitcnt_succ_toNat _ hn] at hlast
    exact (hi.storeBit hop hn (fun _ => by omega) d).enterPhase hb (by rw [storeBit_eng, hp]; rfl) rfl

theorem State.Inv.phaseTick (hi : s.Inv) (hb : s.eng.busy = true) (levels : Levels) :
    (phaseTick levels s.eng.phase s).Inv := by
  have hop := hi.sequencer.busy_phase hb
  cases hp : s.eng.phase with
  | idle => exact hi
  | wlWait => exact hi.waitTick hp rfl rfl fun _ => hi.finished .ok (by decide) _ _ _
  | pmRise => exact hi.riseTick hb hp rfl rfl .pmHold rfl rfl
  | pmHold => exact hi.waitTick hp rfl rfl fun _ => hi.finished .ok (by decide) _ _ _
  | dhWakeLow =>
    have hline := hi.curLine_lt hb (by rw [← hop, hp]; rfl)
    exact hi.delayTick (action := fun s => s.drive (curLine s.eng) true) hb hp rfl .dhWakeHigh rfl rfl
      (hi.drive hline true) rfl rfl
  | dhWakeHigh =>
    have hline := hi.curLine_lt hb (by rw [← hop, hp]; rfl)
    exact hi.delayTick (action := fun s => s.release (curLine s.eng) .up) hb hp rfl .dhHs1 rfl rfl
      (hi.release hline .up) rfl rfl
  | dhHs1 => exact hi.handshakeTick hb hp rfl .dhHs2 rfl rfl
  | dhHs2 => exact hi.handshakeTick hb hp rfl .dhHs3 rfl rfl
  | dhHs3 => exact hi.handshakeTick hb hp rfl .dhBitRise rfl rfl
  | dhBitRise => exact hi.riseTick hb hp rfl rfl .dhBitHold rfl rfl
  | dhBitHold => exact hi.waitTick hp rfl rfl fun _ => hi.bitEnd hb hp _
  | ecTrigLow =>
    obtain ⟨htrig, _, _⟩ := Config.legal_lines hi.config s.eng.curIdx
    exact hi.delayTick (action := fun s => s.drive (curTrig s.cfg s.eng) true) hb hp rfl .ecTrigHigh rfl rfl
      (hi.drive htrig true) rfl rfl
  | ecTrigHigh =>
    exact hi.delayTick hb hp rfl .ecRise rfl rfl hi.endTrigger (endTrigger_eng s) (endTrigger_countOn_enterPhase s _)
  | ecRise =>
    have hunb := curUnb_echo s.eng (by rw [← hop, hp]; rfl)
    exact hi.riseTick hb hp rfl (by simp [hunb]) .ecHold rfl rfl
  | ecHold =>
    have hunb := curUnb_echo s.eng (by rw [← hop, hp]; rfl)
    exact hi.waitTick hp rfl (by simp [hunb]) fun _ => hi.finished .ok (by decide) _ _ _

theorem State.Inv.tick {t : State} (hi : s.Inv) (levels : Levels) (h : tick levels s = .next t) : t.Inv := by
  obtain ⟨_, rfl⟩ | ⟨hb, _, rfl⟩ := tick_next_cases levels s t h
  · exact hi
  · exact hi.phaseTick hb levels

end

/-- Settles O40: a tick, an access and the reset input each keep the invariant. -/
theorem stepKeepsInvariants : Obligations.StepKeepsInvariants := by
  intro s t hi h
  have htaken : s.taken.Inv := hi.of_eng s.taken_cfg s.taken_eng
  obtain ⟨hc, ⟨_, levels, ht⟩ | ⟨_, addr, size, kind, ha⟩ | ⟨_, rfl⟩⟩ := step_next_cases s t h
  · exact htaken.tick levels ht
  · exact htaken.hostAccess addr size kind ha
  · exact State.hardReset_inv _ (by rw [State.taken_cfg, hc])

end Sys2Proof.Machine

/-! Proof that a state that meets the invariant answers (R58, R89). -/

namespace Sys2Proof.Machine

/-! ## No fault and no refusal -/

/-- Under a legal configuration a CMD write is always answered (R80, R81). -/
theorem accept_answers (w : Word) (start : State → State) (s : State) (hc : s.cfg.legal = true) :
    ∃ t, accept w start s = .next t := by
  obtain ⟨hn, _⟩ | ⟨_, _, h⟩ | ⟨_, _, _, h⟩ | ⟨_, _, _, h⟩ := accept_cases w start s
  · rw [hc] at hn
    cases hn
  · exact ⟨_, h⟩
  · exact ⟨_, h⟩
  · exact ⟨_, h⟩

theorem writeReg_answers (off : Nat) (w : Word) (s : State) (hc : s.cfg.legal = true) :
    ∃ t, writeReg off w s = .next t := by
  obtain ⟨_, h⟩ | ⟨_, h⟩ | ⟨_, _, h⟩ := writeReg_cases off w s <;> rw [h]
  · obtain ⟨i, _, h⟩ | ⟨_, _, h⟩ := writeCmd_cases w s <;> rw [h]
    · rw [exec_eq_accept]
      exact accept_answers _ _ s hc
    · exact accept_answers _ _ s hc
  · exact ⟨_, rfl⟩
  · exact ⟨_, rfl⟩

/-- With WINDOW_UNCACHED every host access is answered (R71 to R73, R89). -/
theorem hostAccess_answers (addr size : Nat) (kind : AccessKind) (s : State) (hc : s.cfg.legal = true)
    (hu : s.cfg.windowUncached = true) : ∃ t, hostAccess addr size kind s = .next t := by
  unfold hostAccess
  simp only [hu]
  split
  case isFalse => exact ⟨s, rfl⟩
  case isTrue =>
    simp only [Bool.not_true, Bool.false_eq_true, if_false]
    split
    case isFalse => exact ⟨_, rfl⟩
    case isTrue =>
      cases kind with
      | read => exact ⟨_, rfl⟩
      | write w => exact writeReg_answers _ w s hc

theorem State.Inv.tick_answers {s : State} (hi : s.Inv) (levels : Levels) : ∃ t, Machine.tick levels s = .next t :=
  Machine.tick_answers levels s fun hb => (hi.stated.busy_record hb).2.2

/-- Settles O42: R58 keeps a tick from the one fault, and the premises keep an access from each refusal. -/
theorem invariantStatesAnswer : Obligations.InvariantStatesAnswer := by
  intro s hi hu
  have htaken : s.taken.Inv := hi.of_eng s.taken_cfg s.taken_eng
  rw [step_eq_taken s hi.config]
  match s.inputs with
  | [] => exact htaken.tick_answers _
  | .tick levels :: _ => exact htaken.tick_answers levels
  | .access addr size kind :: _ => exact hostAccess_answers addr size kind _ htaken.config (by rw [State.taken_cfg, hu])
  | .reset :: _ => exact ⟨_, rfl⟩

end Sys2Proof.Machine

/-! Proof that line requests change only by line events (R50). -/

namespace Sys2Proof.Machine

/-! ## Line requests follow line events -/

/-- t's requests are s's, changed by the line events t has more than s, in their order (R50). -/
def Follows (s t : State) : Prop :=
  ∃ evs, t.lineEvents = s.lineEvents ++ evs ∧ t.eng.lines = evs.foldl applyLineEvent s.eng.lines

/-- What acts on no line follows. -/
theorem Follows.of_same {s t : State} (he : t.lineEvents = s.lineEvents) (hl : t.eng.lines = s.eng.lines) :
    Follows s t :=
  ⟨[], by simp [he], hl⟩

theorem Follows.drive {s t : State} (h : Follows s t) (l : Line) (v : Level) : Follows s (t.drive l v) := by
  obtain ⟨evs, he, hl⟩ := h
  exact ⟨evs ++ [.drive l v], by simp [he], by simp [hl, List.foldl_append, applyLineEvent]⟩

theorem Follows.release {s t : State} (h : Follows s t) (l : Line) (p : Pull) : Follows s (t.release l p) := by
  obtain ⟨evs, he, hl⟩ := h
  exact ⟨evs ++ [.release l p], by simp [he], by simp [hl, List.foldl_append, applyLineEvent]⟩

theorem Follows.setupLines {s t : State} (h : Follows s t) (i : Fin 3) : Follows s (setupLines i t) := by
  unfold Machine.setupLines
  split <;> split
  · exact ((h.drive _ _).drive _ _).release _ _
  · exact (h.drive _ _).drive _ _
  · exact (h.drive _ _).release _ _
  · exact h.drive _ _

theorem Follows.endTrigger {s t : State} (h : Follows s t) : Follows s (endTrigger t) := by
  unfold Machine.endTrigger
  split
  · exact (h.drive _ _).release _ _
  · exact h.drive _ _

theorem startOf_follows (i : Instr) (s : State) : Follows s (startOf i s) := by
  have hs : Follows s s := .of_same rfl rfl
  cases i with
  | waitlvl => exact .of_same rfl rfl
  | pulse => exact .of_same rfl rfl
  | dhtread line => exact hs.drive line false
  | echo sel =>
    simp only [startOf, acceptEcho]
    split
    · exact .of_same rfl rfl
    case h_2 k _ => exact Follows.setupLines (t := { s with eng.curIdx := k }) (.of_same rfl rfl) k

theorem hostAccess_follows (addr size : Nat) (kind : AccessKind) (s t : State)
    (h : hostAccess addr size kind s = .next t) : Follows s t := by
  obtain ⟨log, rfl⟩ | ⟨w, rfl⟩ | ⟨_, rfl⟩ | ⟨_, w, _, rfl⟩ | ⟨_, i, _, rfl⟩ :=
    hostAccess_next_cases addr size kind s t h
  · exact .of_same rfl rfl
  · exact .of_same rfl rfl
  · exact .of_same rfl rfl
  · exact .of_same rfl rfl
  · exact startOf_follows i (s.latch (encode i))

theorem waitTick_follows {levels : Levels} {l : Line} {v bounded : Bool} {inTime : Nat → Nat → Bool}
    {onMatch : State → State} {s : State} (h : Follows s (onMatch s)) :
    Follows s (waitTick levels l v bounded inTime onMatch s) := by
  obtain ⟨_, _, he⟩ | ⟨_, _, _, he⟩ | ⟨_, _, he⟩ := waitTick_cases levels l v bounded inTime onMatch s <;> rw [he]
  · exact h
  · exact .of_same rfl rfl
  · exact .of_same rfl rfl

theorem delayTick_follows {d : Nat} {action : State → State} {next : Phase} {s : State}
    (h : ∀ t, Follows s t → Follows s (action t)) : Follows s (delayTick d action next s) := by
  have hs : Follows s s.countOn := .of_same rfl rfl
  obtain ⟨_, he⟩ | ⟨_, he⟩ := delayTick_cases d action next s <;> rw [he]
  · exact h _ hs
  · exact hs

theorem bitEnd_follows (d : Word) (s : State) : Follows s (bitEnd d s) := by
  unfold bitEnd
  simp only
  split
  · exact .of_same rfl (by simp)
  · exact .of_same rfl rfl

theorem phaseTick_follows (levels : Levels) (p : Phase) (s : State) : Follows s (phaseTick levels p s) := by
  cases p with
  | idle => exact .of_same rfl rfl
  | wlWait => exact waitTick_follows (.of_same rfl rfl)
  | pmRise => exact waitTick_follows (.of_same rfl rfl)
  | pmHold => exact waitTick_follows (.of_same rfl rfl)
  | dhWakeLow => exact delayTick_follows fun t ht => ht.drive _ true
  | dhWakeHigh => exact delayTick_follows fun t ht => ht.release _ .up
  | dhHs1 => exact waitTick_follows (.of_same rfl rfl)
  | dhHs2 => exact waitTick_follows (.of_same rfl rfl)
  | dhHs3 => exact waitTick_follows (.of_same rfl rfl)
  | dhBitRise => exact waitTick_follows (.of_same rfl rfl)
  | dhBitHold => exact waitTick_follows (bitEnd_follows _ s)
  | ecTrigLow => exact delayTick_follows fun t ht => ht.drive _ true
  | ecTrigHigh => exact delayTick_follows fun t ht => ht.endTrigger
  | ecRise => exact waitTick_follows (.of_same rfl rfl)
  | ecHold => exact waitTick_follows (.of_same rfl rfl)

theorem tick_follows (levels : Levels) (s t : State) (h : tick levels s = .next t) : Follows s t := by
  obtain ⟨_, rfl⟩ | ⟨_, _, rfl⟩ := tick_next_cases levels s t h
  · exact .of_same rfl rfl
  · exact phaseTick_follows levels _ s

/-- Taking the next event touches no line. -/
theorem Follows.of_taken {s t : State} (h : Follows s.taken t) : Follows s t := by
  simpa [Follows] using h

/-- Settles O48: a tick and an access follow; a reset keeps the record of line events. -/
theorem lineRequestsFollowEvents : Obligations.LineRequestsFollowEvents := by
  intro s t h
  obtain ⟨_, ⟨hn, levels, ht⟩ | ⟨hn, addr, size, kind, ha⟩ | ⟨hr, rfl⟩⟩ := step_next_cases s t h
  · exact ⟨fun _ => (tick_follows levels _ t ht).of_taken, fun hr => absurd hr hn⟩
  · exact ⟨fun _ => (hostAccess_follows addr size kind _ t ha).of_taken, fun hr => absurd hr hn⟩
  · exact ⟨fun hn => absurd hr hn, fun _ => by simp⟩

end Sys2Proof.Machine

/-! Proof that the configuration never changes and that no step sees the platform's parameters (R30, R85, I14). -/

namespace Sys2Proof.Machine

/-! ## The configuration -/

theorem startOf_cfg (i : Instr) (s : State) : (startOf i s).cfg = s.cfg := by
  cases i with
  | waitlvl => rfl
  | pulse => rfl
  | dhtread => rfl
  | echo sel =>
    simp only [startOf, acceptEcho]
    split
    · rfl
    · rw [State.startPhase_cfg, setupLines_cfg]

theorem hostAccess_cfg (addr size : Nat) (kind : AccessKind) (s t : State)
    (h : hostAccess addr size kind s = .next t) : t.cfg = s.cfg := by
  obtain ⟨log, rfl⟩ | ⟨w, rfl⟩ | ⟨_, rfl⟩ | ⟨_, w, _, rfl⟩ | ⟨_, i, _, rfl⟩ :=
    hostAccess_next_cases addr size kind s t h
  · rfl
  · rfl
  · rfl
  · rfl
  · exact startOf_cfg i _

/-- No step changes the configuration (R30, log 3). -/
theorem step_cfg (s t : State) (h : step s = .next t) : t.cfg = s.cfg := by
  obtain ⟨_, ⟨_, levels, ht⟩ | ⟨_, addr, size, kind, ha⟩ | ⟨_, rfl⟩⟩ := step_next_cases s t h
  · rw [(tick_env levels _ t ht).1, State.taken_cfg]
  · rw [hostAccess_cfg addr size kind _ t ha, State.taken_cfg]
  · exact s.taken_cfg

/-! ## The platform's parameters -/

section
variable (ordered : Bool) (routing : Vector (Option Pin) 32)

/-- s with other values of HOST_ORDERED_IO and LINE_ROUTING (D29, D44). -/
def State.onPlatform (s : State) : State :=
  { s with cfg.hostOrderedIo := ordered, cfg.lineRouting := routing }

/-- An outcome with its next state on another platform. -/
def nextOnPlatform : Host.Outcome State Fault Refusal → Host.Outcome State Fault Refusal
  | .next t => .next (t.onPlatform ordered routing)
  | .fault f => .fault f
  | .refused r => .refused r

/-- The operation f does the same on the other platform. -/
def PlatformFree (f : State → State) : Prop :=
  ∀ s : State, f (s.onPlatform ordered routing) = (f s).onPlatform ordered routing

variable {ordered : Bool} {routing : Vector (Option Pin) 32}

/-- No register of the engine sees the platform. -/
@[simp] theorem State.onPlatform_eng (s : State) : (s.onPlatform ordered routing).eng = s.eng := rfl

theorem State.drive_onPlatform (s : State) (l : Line) (v : Level) :
    (s.drive l v).onPlatform ordered routing = (s.onPlatform ordered routing).drive l v := rfl

theorem State.release_onPlatform (s : State) (l : Line) (p : Pull) :
    (s.release l p).onPlatform ordered routing = (s.onPlatform ordered routing).release l p := rfl

theorem setupLines_platformFree (i : Fin 3) : PlatformFree ordered routing (setupLines i) := by
  intro s
  simp only [setupLines, apply_ite (State.onPlatform ordered routing), State.drive_onPlatform,
    State.release_onPlatform]
  rfl

theorem endTrigger_platformFree : PlatformFree ordered routing endTrigger := by
  intro s
  simp only [endTrigger, apply_ite (State.onPlatform ordered routing)]
  rfl

/-! ### Ticks -/

theorem waitTick_onPlatform {onMatch : State → State} (levels : Levels) (l : Line) (v bounded : Bool)
    (inTime : Nat → Nat → Bool) (s : State) (h : PlatformFree ordered routing onMatch) :
    waitTick levels l v bounded inTime onMatch (s.onPlatform ordered routing) =
      (waitTick levels l v bounded inTime onMatch s).onPlatform ordered routing := by
  simp only [waitTick, apply_ite (State.onPlatform ordered routing), ← h s]
  rfl

theorem delayTick_platformFree {action : State → State} (d : Nat) (next : Phase)
    (h : PlatformFree ordered routing action) : PlatformFree ordered routing (delayTick d action next) := by
  intro s
  have hend : ((action s.countOn).enterPhase next).onPlatform ordered routing =
      (action (s.countOn.onPlatform ordered routing)).enterPhase next := by
    rw [h]
    rfl
  simp only [delayTick, apply_ite (State.onPlatform ordered routing), hend]
  rfl

theorem bitEnd_platformFree (d : Word) : PlatformFree ordered routing (bitEnd d) := by
  intro s
  simp only [bitEnd, apply_ite (State.onPlatform ordered routing)]
  rfl

theorem phaseTick_platformFree (levels : Levels) (p : Phase) : PlatformFree ordered routing (phaseTick levels p) := by
  intro s
  cases p with
  | idle => rfl
  | wlWait => exact waitTick_onPlatform (onMatch := fun s => s.finishValue s.eng.cnt) levels _ _ _ _ s fun _ => rfl
  | pmRise => exact waitTick_onPlatform (onMatch := State.riseSeen _) levels _ _ _ _ s fun _ => rfl
  | pmHold =>
    exact waitTick_onPlatform (onMatch := fun s => s.finishValue (pulseDuration s.eng)) levels _ _ _ _ s fun _ => rfl
  | dhWakeLow => exact delayTick_platformFree (action := fun s => s.drive (curLine s.eng) true) _ _ (fun _ => rfl) s
  | dhWakeHigh => exact delayTick_platformFree (action := fun s => s.release (curLine s.eng) .up) _ _ (fun _ => rfl) s
  | dhHs1 => exact waitTick_onPlatform (onMatch := fun s => s.enterPhase _) levels _ _ _ _ s fun _ => rfl
  | dhHs2 => exact waitTick_onPlatform (onMatch := fun s => s.enterPhase _) levels _ _ _ _ s fun _ => rfl
  | dhHs3 => exact waitTick_onPlatform (onMatch := fun s => s.enterPhase _) levels _ _ _ _ s fun _ => rfl
  | dhBitRise => exact waitTick_onPlatform (onMatch := State.riseSeen _) levels _ _ _ _ s fun _ => rfl
  | dhBitHold =>
    exact waitTick_onPlatform (onMatch := fun s => bitEnd (pulseDuration s.eng) s) levels _ _ _ _ s
      fun t => bitEnd_platformFree (pulseDuration t.eng) t
  | ecTrigLow =>
    exact delayTick_platformFree (action := fun s => s.drive (curTrig s.cfg s.eng) true) _ _ (fun _ => rfl) s
  | ecTrigHigh => exact delayTick_platformFree _ _ endTrigger_platformFree s
  | ecRise => exact waitTick_onPlatform (onMatch := State.riseSeen _) levels _ _ _ _ s fun _ => rfl
  | ecHold =>
    exact waitTick_onPlatform (onMatch := fun s => echoEnd (pulseDuration s.eng) s) levels _ _ _ _ s fun _ => rfl

theorem tick_onPlatform (levels : Levels) (s : State) :
    tick levels (s.onPlatform ordered routing) = nextOnPlatform ordered routing (tick levels s) := by
  cases hb : s.eng.busy with
  | false =>
    rw [tick_idle levels s hb, tick_idle levels (s.onPlatform ordered routing) hb]
    rfl
  | true =>
    rw [tick_busy levels s hb, tick_busy levels (s.onPlatform ordered routing) hb, State.onPlatform_eng,
      phaseTick_platformFree]
    split <;> rfl

/-! ### Accesses -/

theorem accept_onPlatform {start : State → State} (w : Word) (s : State) (h : PlatformFree ordered routing start) :
    accept w start (s.onPlatform ordered routing) = nextOnPlatform ordered routing (accept w start s) := by
  have hstart : nextOnPlatform ordered routing (.next (start (s.latch w))) =
      .next (start ((s.latch w).onPlatform ordered routing)) := by
    rw [h]
    rfl
  simp only [accept, apply_ite (nextOnPlatform ordered routing), hstart]
  rfl

theorem startOf_platformFree (i : Instr) : PlatformFree ordered routing (startOf i) := by
  intro s
  cases i with
  | waitlvl => rfl
  | pulse => rfl
  | dhtread => rfl
  | echo sel =>
    have hsel : lookupSel (s.onPlatform ordered routing).cfg sel = lookupSel s.cfg sel := rfl
    simp only [startOf, acceptEcho, hsel]
    split
    · rfl
    case h_2 k _ =>
      exact congrArg (State.startPhase · .ecTrigLow) (setupLines_platformFree k { s with eng.curIdx := k })

theorem writeReg_onPlatform (off : Nat) (w : Word) (s : State) :
    writeReg off w (s.onPlatform ordered routing) = nextOnPlatform ordered routing (writeReg off w s) := by
  unfold writeReg
  split
  · have hdecode : decode (s.onPlatform ordered routing).cfg.nLines w = decode s.cfg.nLines w := rfl
    simp only [writeCmd, hdecode]
    split
    · rw [exec_eq_accept, exec_eq_accept]
      exact accept_onPlatform _ s (startOf_platformFree _)
    · refine accept_onPlatform w s ?_
      exact fun _ => rfl
  · rfl
  · rfl

theorem hostAccess_onPlatform (addr size : Nat) (kind : AccessKind) (s : State) :
    hostAccess addr size kind (s.onPlatform ordered routing) =
      nextOnPlatform ordered routing (hostAccess addr size kind s) := by
  cases kind with
  | read =>
    simp only [hostAccess, apply_ite (nextOnPlatform ordered routing)]
    rfl
  | write w =>
    simp only [hostAccess, apply_ite (nextOnPlatform ordered routing), ← writeReg_onPlatform]
    rfl

/-- R85, I14: a step sees neither parameter. -/
theorem step_onPlatform (s : State) :
    step (s.onPlatform ordered routing) = nextOnPlatform ordered routing (step s) := by
  cases hc : s.cfg.legal with
  | false =>
    rw [step_of_illegal_config s hc, step_of_illegal_config (s.onPlatform ordered routing) hc]
    rfl
  | true =>
    match hi : s.inputs with
    | [] =>
      rw [step_free s hc hi, step_free (s.onPlatform ordered routing) hc hi]
      exact tick_onPlatform _ { s with drawNo := s.drawNo + 1 }
    | e :: rest =>
      rw [step_event s e rest hc hi, step_event (s.onPlatform ordered routing) e rest hc hi]
      cases e with
      | tick levels => exact tick_onPlatform levels { s with inputs := rest }
      | access addr size kind => exact hostAccess_onPlatform addr size kind { s with inputs := rest }
      | reset => rfl

end

/-- Settles O43: `step_cfg`, and `step_onPlatform` for each outcome. -/
theorem configurationNeverChanges : Obligations.ConfigurationNeverChanges := by
  refine ⟨step_cfg, fun s ordered routing => ?_⟩
  have hstep := step_onPlatform (ordered := ordered) (routing := routing) s
  refine ⟨fun t h => ?_, fun f h => ?_, fun r h => ?_⟩ <;>
  · rw [h] at hstep
    exact hstep

end Sys2Proof.Machine

/-! Proofs of the statements about the register window (`20_memory.md` R71 to R85): what an access outside the window, a
malformed one, a read and a write of each register do, and what the acceptance of a command leaves unchanged. -/

namespace Sys2Proof.Machine

/-! ## The start of a command -/

/-- The setup of an ECHO changes line requests and the record of line events, nothing else. -/
theorem setupLines_frame (k : Fin 3) (s : State) :
    setupLines k s = { s with
      eng.lines := (setupLines k s).eng.lines, lineEvents := (setupLines k s).lineEvents } := by
  unfold setupLines
  split <;> split <;> rfl

/-- The setup does the line events of R192. -/
theorem setupLines_lineEvents (k : Fin 3) (s : State) :
    (setupLines k s).lineEvents = s.lineEvents ++ setupEvents s.cfg k := by
  unfold setupLines setupEvents
  split <;> by_cases hpin : (echoEntry s.cfg k).echol = (echoEntry s.cfg k).trig <;> simp [hpin]

/-- Everything the start of an ECHO can do: no entry has the selector, or one has it and its setup runs (R191, R192). -/
theorem startOf_echo_cases (sel : BitVec 8) (tmo : Timeout) (s : State) :
    (lookupSel s.cfg sel = none ∧ startOf (.echo sel tmo) s = s.endAtAcceptance .unsupported) ∨
    (∃ k, lookupSel s.cfg sel = some k ∧
      startOf (.echo sel tmo) s = (setupLines k { s with eng.curIdx := k }).startPhase .ecTrigLow) := by
  cases hk : lookupSel s.cfg sel with
  | none => exact .inl ⟨rfl, by simp [startOf, acceptEcho, hk]⟩
  | some k => exact .inr ⟨k, rfl, by simp [startOf, acceptEcho, hk]⟩

/-- The line events of a command's start (R141, R143, R161, R191, R192). -/
def startEvents (c : Config) : Instr → List LineEvent
  | .waitlvl _ _ _ _ => []
  | .pulse _ _ _ _ => []
  | .dhtread line _ _ _ _ => [.drive line false]
  | .echo sel _ => ((lookupSel c sel).map (setupEvents c)).getD []

theorem startOf_lineEvents (i : Instr) (s : State) :
    (startOf i s).lineEvents = s.lineEvents ++ startEvents s.cfg i := by
  cases i with
  | waitlvl => simp [startOf, startEvents]
  | pulse => simp [startOf, startEvents]
  | dhtread line => simp [startOf, startEvents]
  | echo sel tmo =>
    obtain ⟨hk, he⟩ | ⟨k, hk, he⟩ := startOf_echo_cases sel tmo s <;> rw [he]
    · simp [startEvents, hk]
    · rw [State.startPhase_lineEvents, setupLines_lineEvents]
      simp [startEvents, hk]

/-- The line requests after a command's start are those its events make (R50). -/
theorem startOf_lines (i : Instr) (s : State) :
    (startOf i s).eng.lines = (startEvents s.cfg i).foldl applyLineEvent s.eng.lines := by
  obtain ⟨evs, hevs, hlines⟩ := startOf_follows i s
  rw [startOf_lineEvents] at hevs
  rw [hlines, List.append_cancel_left hevs]

/-- R192's line actions are on the lines of the entry, and on the aux line for the aux entry. -/
theorem eventLine_of_mem_setupEvents {c : Config} {k : Fin 3} {e : LineEvent} (h : e ∈ setupEvents c k) :
    eventLine e = (echoEntry c k).trig ∨ eventLine e = (echoEntry c k).echol ∨
      (k = c.auxEntry ∧ eventLine e = c.auxLine) := by
  simp only [setupEvents, List.mem_append, List.mem_singleton] at h
  obtain (haux | rfl) | hechol := h
  · split at haux
    case isTrue hk =>
      rw [List.mem_singleton.1 haux]
      exact .inr (.inr ⟨hk, rfl⟩)
    case isFalse => cases haux
  · exact .inl rfl
  · split at hechol
    case isTrue => cases hechol
    case isFalse =>
      rw [List.mem_singleton.1 hechol]
      exact .inr (.inl rfl)

/-- A command's start acts only on lines the command uses (R257). -/
theorem usesLine_of_mem_startEvents {c : Config} {i : Instr} {e : LineEvent} (h : e ∈ startEvents c i) :
    usesLine c i (eventLine e) := by
  cases i with
  | waitlvl => cases h
  | pulse => cases h
  | dhtread line =>
    rw [List.mem_singleton.1 h]
    rfl
  | echo sel tmo =>
    cases hk : lookupSel c sel with
    | none => simp [startEvents, hk] at h
    | some k =>
      simp only [startEvents, hk, Option.map_some, Option.getD_some] at h
      exact ⟨k, lookupSel_some c sel k hk, eventLine_of_mem_setupEvents h⟩

theorem applyLineEvent_of_ne (lines : Vector LineReq 32) (e : LineEvent) (l : Line) (h : eventLine e ≠ l) :
    (applyLineEvent lines e)[l.toNat] = lines[l.toNat] := by
  have hne : (eventLine e).toNat ≠ l.toNat := fun heq => h (BitVec.eq_of_toNat_eq heq)
  cases e with
  | drive k => exact Vector.getElem_set_ne k.isLt l.isLt hne
  | release k => exact Vector.getElem_set_ne k.isLt l.isLt hne

/-- Line events leave the request of every other line (R18). -/
theorem foldl_applyLineEvent_of_ne (evs : List LineEvent) (lines : Vector LineReq 32) (l : Line)
    (h : ∀ e ∈ evs, eventLine e ≠ l) : (evs.foldl applyLineEvent lines)[l.toNat] = lines[l.toNat] := by
  induction evs generalizing lines with
  | nil => rfl
  | cons e evs ih =>
    rw [List.foldl_cons, ih _ fun e' he' => h e' (List.mem_cons_of_mem _ he'),
      applyLineEvent_of_ne _ _ _ (h e List.mem_cons_self)]

/-- A command's start leaves the events to come, the free samples and the answers. -/
theorem startOf_env (i : Instr) (s : State) :
    (startOf i s).inputs = s.inputs ∧ (startOf i s).drawNo = s.drawNo ∧ (startOf i s).busLog = s.busLog := by
  cases i with
  | waitlvl => exact ⟨rfl, rfl, rfl⟩
  | pulse => exact ⟨rfl, rfl, rfl⟩
  | dhtread => exact ⟨rfl, rfl, rfl⟩
  | echo sel tmo =>
    obtain ⟨_, he⟩ | ⟨k, _, he⟩ := startOf_echo_cases sel tmo s <;> rw [he]
    · exact ⟨rfl, rfl, rfl⟩
    · rw [setupLines_frame]
      exact ⟨rfl, rfl, rfl⟩

/-- A command's start leaves OVR; only a DHTREAD's changes SR and only an ECHO's changes CUR.IDX (R80, R161, R191). -/
theorem startOf_kept (i : Instr) (s : State) :
    (startOf i s).eng.ovr = s.eng.ovr ∧
    ((startOf i s).eng.sr = s.eng.sr ∨ ∃ line unb chk fld tmo, i = .dhtread line unb chk fld tmo) ∧
    ((startOf i s).eng.curIdx = s.eng.curIdx ∨ ∃ sel tmo, i = .echo sel tmo) := by
  cases i with
  | waitlvl => exact ⟨rfl, .inl rfl, .inl rfl⟩
  | pulse => exact ⟨rfl, .inl rfl, .inl rfl⟩
  | dhtread => exact ⟨rfl, .inr ⟨_, _, _, _, _, rfl⟩, .inl rfl⟩
  | echo sel tmo =>
    obtain ⟨_, he⟩ | ⟨k, _, he⟩ := startOf_echo_cases sel tmo s <;> rw [he]
    · exact ⟨rfl, .inl rfl, .inl rfl⟩
    · rw [setupLines_frame]
      exact ⟨rfl, .inl rfl, .inr ⟨_, _, rfl⟩⟩

/-- Settles O24: a drop and an illegal word touch no line; a start touches those of its events. -/
theorem commandFrame : Obligations.CommandFrame := by
  intro i s t h
  rw [exec_eq_accept] at h
  obtain ⟨hb, rfl⟩ | ⟨_, _, rfl⟩ | ⟨_, _, rfl⟩ := accept_next_cases _ _ s t h
  · exact ⟨rfl, rfl, rfl, rfl, .inr ⟨hb, rfl⟩, .inl rfl, .inl rfl, fun _ _ => rfl, ⟨[], by simp, by simp⟩,
      fun _ => ⟨rfl, rfl⟩⟩
  · exact ⟨rfl, rfl, rfl, rfl, .inl rfl, .inl rfl, .inl rfl, fun _ _ => rfl, ⟨[], by simp, by simp⟩,
      fun _ => ⟨rfl, rfl⟩⟩
  · obtain ⟨hinputs, hdraw, hlog⟩ := startOf_env i (s.latch (encode i))
    obtain ⟨hovr, hsr, hidx⟩ := startOf_kept i (s.latch (encode i))
    have hused : ∀ e ∈ startEvents s.cfg i, usesLine s.cfg i (eventLine e) :=
      fun e he => usesLine_of_mem_startEvents he
    refine ⟨startOf_cfg i _, hinputs, hdraw, hlog, .inl hovr, hsr, hidx, fun l hl => ?_,
      ⟨startEvents s.cfg i, startOf_lineEvents i _, hused⟩, ?_⟩
    · rw [startOf_lines]
      exact foldl_applyLineEvent_of_ne _ _ l fun e he hel => hl (hel ▸ hused e he)
    · rintro ⟨_, _, _, _, rfl | rfl⟩ <;> exact ⟨rfl, rfl⟩

/-! ## A step that is an access -/

theorem State.covered_iff (s : State) : s.covered = true ↔ s.cfg.legal = true ∧ s.cfg.windowUncached = true := by
  simp [State.covered]

theorem step_access (s : State) (rest : List Event) (addr size : Nat) (kind : AccessKind) (hc : s.cfg.legal = true)
    (hi : s.inputs = .access addr size kind :: rest) :
    step s = hostAccess addr size kind { s with inputs := rest } :=
  step_event s _ rest hc hi

section
variable {s : State} {rest : List Event} {off : Nat} (hs : s.covered = true) (ho : off < 0x20) (ha : off % 4 = 0)
include hs ho ha

/-- A write of a register, the next event (R72, R77). -/
theorem step_hostWrite {w : Word} (hi : s.inputs = hostWrite s.cfg off w :: rest) :
    step s = writeReg off w { s with inputs := rest } := by
  obtain ⟨hc, hu⟩ := s.covered_iff.1 hs
  rw [step_access s rest _ _ _ hc hi]
  exact hostAccess_legal { s with inputs := rest } off _ hu ho ha

/-- A read of a register, the next event (R72, R78). -/
theorem step_hostRead (hi : s.inputs = hostRead s.cfg off :: rest) :
    step s = .next (State.replyData { s with inputs := rest } (s.cfg.base + off) (readReg s.eng off)) := by
  obtain ⟨hc, hu⟩ := s.covered_iff.1 hs
  rw [step_access s rest _ _ _ hc hi]
  exact hostAccess_legal { s with inputs := rest } off _ hu ho ha

end

/-! ## Writes to CMD -/

theorem writeCmd_of_decode (w : Word) (s : State) (i : Instr) (h : decode s.cfg.nLines w = .ok i) :
    writeCmd w s = exec i s := by
  simp [writeCmd, h]

/-- R81. -/
theorem accept_busy (w : Word) (start : State → State) (s : State) (hc : s.cfg.legal = true)
    (hb : s.eng.busy = true) : accept w start s = .next s.overrun := by
  simp [accept, hc, hb]

theorem exec_busy (i : Instr) (s : State) (hc : s.cfg.legal = true) (hb : s.eng.busy = true) :
    exec i s = .next s.overrun := by
  rw [exec_eq_accept, accept_busy _ _ s hc hb]

theorem writeCmd_busy (w : Word) (s : State) (hc : s.cfg.legal = true) (hb : s.eng.busy = true) :
    writeCmd w s = .next s.overrun := by
  obtain ⟨i, _, h⟩ | ⟨_, _, h⟩ := writeCmd_cases w s <;> rw [h]
  · exact exec_busy i s hc hb
  · exact accept_busy w _ s hc hb

/-- The event `withFetchWord` puts first is the host's write of that word to CMD (log 17). -/
theorem withFetchWord_inputs (s : State) (w : Word) :
    (s.withFetchWord 32 w.toNat).inputs = hostWrite s.cfg 0 w :: s.inputs := by
  simp [State.withFetchWord, hostWrite, Nat.mod_eq_of_lt w.isLt]

/-- A step that writes a command's word to CMD is that command's `exec` (R80). -/
theorem step_cmd_write {s : State} {rest : List Event} {w : Word} {i : Instr} (hs : s.covered = true)
    (hi : s.inputs = hostWrite s.cfg 0 w :: rest) (hd : decode s.cfg.nLines w = .ok i) :
    step s = exec i { s with inputs := rest } := by
  rw [step_hostWrite hs (by decide) (by decide) hi]
  exact writeCmd_of_decode w _ i hd

/-- Settles O7: `step_cmd_write`, on any such state and on the one `withFetchWord` makes. -/
theorem stepRunsDecodedCommand : Obligations.StepRunsDecodedCommand := by
  refine ⟨fun s rest w i hs hi hd => step_cmd_write hs hi hd, fun s w i hs hd => ?_⟩
  exact step_cmd_write (s := s.withFetchWord 32 w.toNat) hs (withFetchWord_inputs s w) hd

/-- Settles O9: the drop comes first, before the word is looked at (R225). -/
theorem busyCmdWriteIsDropped : Obligations.BusyCmdWriteIsDropped := by
  refine ⟨fun s rest w hs hb hi => ?_, exec_busy⟩
  rw [step_hostWrite hs (by decide) (by decide) hi]
  exact writeCmd_busy w { s with inputs := rest } (s.covered_iff.1 hs).1 hb

/-! ## Writes to the other registers -/

/-- Settles O10: the write is `writeStatus`. -/
theorem statusWriteClearsByOne : Obligations.StatusWriteClearsByOne := by
  intro s rest w hs hi
  rw [step_hostWrite hs (by decide) (by decide) hi]
  rfl

/-- Only CMD and STATUS can be written (R77, R83). -/
theorem writeReg_of_ne (off : Nat) (w : Word) (s : State) (h0 : off ≠ 0) (h4 : off ≠ 4) :
    writeReg off w s = .next s := by
  obtain ⟨h, _⟩ | ⟨h, _⟩ | ⟨_, _, h⟩ := writeReg_cases off w s
  · exact absurd h h0
  · exact absurd h h4
  · exact h

/-- Settles O11: the six offsets are words of the window, and neither CMD nor STATUS. -/
theorem otherWritesAreIgnored : Obligations.OtherWritesAreIgnored := by
  intro s rest off w hs hoff hi
  obtain ⟨ho, ha, h0, h4⟩ : off < 0x20 ∧ off % 4 = 0 ∧ off ≠ 0 ∧ off ≠ 4 := by
    simp only [List.mem_cons, List.not_mem_nil, or_false] at hoff
    omega
  rw [step_hostWrite hs ho ha hi, writeReg_of_ne off w _ h0 h4]

/-! ## Reads -/

/-- Every register of R78's table stands at a word of the window, and a read returns its value. -/
theorem readReg_of_mem_registerTable {e : Engine} {off : Nat} {v : Word} (h : (off, v) ∈ registerTable e) :
    off < 0x20 ∧ off % 4 = 0 ∧ readReg e off = v := by
  simp only [registerTable, List.mem_cons, Prod.mk.injEq, List.not_mem_nil, or_false] at h
  rcases h with ⟨rfl, rfl⟩ | ⟨rfl, rfl⟩ | ⟨rfl, rfl⟩ | ⟨rfl, rfl⟩ | ⟨rfl, rfl⟩ | ⟨rfl, rfl⟩ | ⟨rfl, rfl⟩ |
    ⟨rfl, rfl⟩ <;>
  exact ⟨by decide, by decide, rfl⟩

/-- R76, R78. -/
theorem step_read_register {s : State} {rest : List Event} {off : Nat} {v : Word} (hs : s.covered = true)
    (hv : (off, v) ∈ registerTable s.eng) (hi : s.inputs = hostRead s.cfg off :: rest) :
    step s = .next { s with inputs := rest, busLog := s.busLog ++ [.data (s.cfg.base + off) v] } := by
  obtain ⟨ho, ha, hr⟩ := readReg_of_mem_registerTable hv
  rw [step_hostRead hs ho ha hi, hr]
  rfl

/-- An access takes no event from the queue and puts none there. -/
theorem hostAccess_inputs (addr size : Nat) (kind : AccessKind) (s t : State)
    (h : hostAccess addr size kind s = .next t) : t.inputs = s.inputs := by
  obtain ⟨log, rfl⟩ | ⟨w, rfl⟩ | ⟨_, rfl⟩ | ⟨_, w, _, rfl⟩ | ⟨_, i, _, rfl⟩ :=
    hostAccess_next_cases addr size kind s t h
  · rfl
  · rfl
  · rfl
  · rfl
  · exact (startOf_env i _).1

/-- Settles O12: an ordered host issues the program as it is, and the first access leaves the read next (R85). -/
theorem readsReturnRegisters : Obligations.ReadsReturnRegisters := by
  refine ⟨fun s rest off v hs hv hi => step_read_register hs hv hi, ?_⟩
  intro s t issued rest addr size off kind v hs hordered hissue hi ht hv
  obtain rfl := (mayIssue_ordered s.cfg _ issued hordered).1 hissue
  have hcfg : t.cfg = s.cfg := hostAccess_cfg addr size kind { s with inputs := hostRead s.cfg off :: rest } t ht
  have hinputs : t.inputs = hostRead t.cfg off :: rest := by
    rw [hostAccess_inputs addr size kind _ t ht, hcfg]
  have hcovered : t.covered = true := by
    rw [State.covered, hcfg]
    exact hs
  refine ⟨?_, ?_⟩
  · rw [step_access s _ addr size kind (s.covered_iff.1 hs).1 hi]
    exact ht
  · rw [step_read_register hcovered hv hinputs, hcfg]

/-! ## Accesses that reach no register -/

theorem accessLegal_eq_false_iff (c : Config) (addr size : Nat) :
    accessLegal c addr size = false ↔ size ≠ 4 ∨ (addr - c.base) % 4 ≠ 0 := by
  simp only [accessLegal, Bool.and_eq_false_iff, decide_eq_false_iff_not, ne_eq]

/-- R73. -/
theorem hostAccess_malformed (addr size : Nat) (kind : AccessKind) (s : State) (hu : s.cfg.windowUncached = true)
    (hw : inWindow s.cfg addr = true) (hl : accessLegal s.cfg addr size = false) :
    hostAccess addr size kind s = .next (s.raiseBusError addr) := by
  simp [hostAccess, hu, hw, hl]

/-- Settles O14: the form is looked at before the register and before what the access does. -/
theorem malformedAccessGetsBusError : Obligations.MalformedAccessGetsBusError := by
  intro s rest addr size kind hs hlo hhi hform hi
  obtain ⟨hc, hu⟩ := s.covered_iff.1 hs
  rw [step_access s rest addr size kind hc hi]
  exact hostAccess_malformed addr size kind _ hu ((inWindow_iff s.cfg addr).2 ⟨hlo, hhi⟩)
    ((accessLegal_eq_false_iff s.cfg addr size).2 hform)

/-- R71, log 8. -/
theorem hostAccess_outside (addr size : Nat) (kind : AccessKind) (s : State) (hw : inWindow s.cfg addr = false) :
    hostAccess addr size kind s = .next s := by
  simp [hostAccess, hw]

/-- Settles O16: the window is looked at first, before WINDOW_UNCACHED and the access's form. -/
theorem accessOutsideWindowIsNotTheEngines : Obligations.AccessOutsideWindowIsNotTheEngines := by
  intro s rest addr size kind hc hout hi
  have hw : inWindow s.cfg addr = false := by
    rw [Bool.eq_false_iff, ne_eq, inWindow_iff]
    omega
  rw [step_access s rest addr size kind hc hi]
  exact hostAccess_outside addr size kind _ hw

end Sys2Proof.Machine


/-! Proofs of the statements about illegal words (`30_encoding.md` R107): a write of one to CMD and the acceptance of a
command whose LINE is out of range both end as ILLEGAL. -/

namespace Sys2Proof.Machine

/-- R80, R107. -/
theorem accept_illegal (w : Word) (start : State → State) (s : State) (hc : s.cfg.legal = true)
    (hb : s.eng.busy = false) (hl : legalWord s.cfg.nLines w = false) :
    accept w start s = .next ((s.latch w).endAtAcceptance .illegal) := by
  simp [accept, hc, hb, hl]

/-- An illegal word decodes to no command, so the write is an acceptance of the bare word (R107, R113). -/
theorem writeCmd_illegal (w : Word) (s : State) (hc : s.cfg.legal = true) (hb : s.eng.busy = false)
    (hl : legalWord s.cfg.nLines w = false) : writeCmd w s = .next ((s.latch w).endAtAcceptance .illegal) := by
  obtain ⟨i, hd, _⟩ | ⟨_, _, h⟩ := writeCmd_cases w s
  · have hlegal : legalWord s.cfg.nLines w = true := by
      rw [← decode_isOk, hd]
      rfl
    exact absurd hlegal (by simp [hl])
  · rw [h]
    exact accept_illegal w _ s hc hb hl

/-- Settles O8: the write latches the word and ends at acceptance, and neither touches a line or SR. -/
theorem illegalWordEndsAtAcceptance : Obligations.IllegalWordEndsAtAcceptance := by
  intro s rest w hs hb hi hl
  rw [step_hostWrite hs (by decide) (by decide) hi]
  exact writeCmd_illegal w { s with inputs := rest } (s.covered_iff.1 hs).1 hb hl

/-- Settles O23: the word of a command is legal exactly when the command is well formed. -/
theorem illFormedCommandIsIllegal : Obligations.IllFormedCommandIsIllegal := by
  intro i s hc hb hwf
  rw [exec_eq_accept]
  exact accept_illegal (encode i) _ s hc hb (by rw [legalWord_encode, hwf])

end Sys2Proof.Machine

/-! Proofs of the statements about `finish`, the acceptance of WAITLVL and PULSE, and single ticks (`40_timed_wait.md` R130
to R143). -/

namespace Sys2Proof.Machine

/-! ## Acceptance -/

/-- s just after it accepted a command (R80). -/
def State.started (s : State) (i : Instr) : State := startOf i (s.latch (encode i))

/-- R80: a well-formed command accepted while idle starts on the latched state. -/
theorem exec_start (i : Instr) (s : State) (hc : s.cfg.legal = true) (hb : s.eng.busy = false)
    (hwf : i.wf s.cfg.nLines = true) : exec i s = .next (s.started i) := by
  rw [exec_eq_accept]
  exact accept_start (encode i) _ s hc hb (by rw [legalWord_encode, hwf])

/-- Settles O18: the start of WAITLVL on the latched state. -/
theorem waitlvlAcceptance : Obligations.WaitlvlAcceptance := by
  intro line lvl unb tmo s hc hb hline
  exact exec_start (.waitlvl line lvl unb tmo) s hc hb (by simpa [Instr.wf] using hline)

/-- Settles O19: the start of PULSE on the latched state. -/
theorem pulseAcceptance : Obligations.PulseAcceptance := by
  intro line lvl unb tmo s hc hb hline
  exact exec_start (.pulse line lvl unb tmo) s hc hb (by simpa [Instr.wf] using hline)

/-! ## Ticks while idle -/

/-- Settles O25: `tick_idle`, also under the step that draws a free sample. -/
theorem idleTickChangesNothing : Obligations.IdleTickChangesNothing := by
  refine ⟨tick_idle, fun s hc hb hi => ?_⟩
  rw [step_free s hc hi]
  exact tick_idle _ _ hb

/-- Settles O35: `finish` clears BUSY, and its sentinel and DUR are looked up for each code. -/
theorem finishRecordsOutcome : Obligations.FinishRecordsOutcome := by
  intro s code
  refine ⟨fun levels => tick_idle levels _ rfl, ?_⟩
  cases code <;> rfl

/-! ## One tick of a phase -/

/-- A tick of a running command is the rule of its phase (R130). -/
theorem tick_of_phase (levels : Levels) (s : State) {p : Phase} (hb : s.eng.busy = true) (hp : s.eng.phase = p)
    (hne : p ≠ .idle) : tick levels s = .next (phaseTick levels p s) := by
  subst hp
  rw [tick_busy levels s hb, if_neg hne]

section
variable {levels : Levels} {l : Line} {v bounded : Bool} {inTime : Nat → Nat → Bool} {onMatch : State → State}
  {s : State}

/-- R133: the level is seen in time. -/
theorem waitTick_match (hv : sample levels l = v)
    (ht : bounded = true → inTime s.eng.cnt.toNat (curTmo s.eng).toNat = true) :
    waitTick levels l v bounded inTime onMatch s = onMatch s := by
  obtain ⟨_, _, he⟩ | ⟨hn, _⟩ | ⟨hn, _⟩ := waitTick_cases levels l v bounded inTime onMatch s
  · exact he
  · exact absurd ⟨hv, ht⟩ hn
  · exact absurd ⟨hv, ht⟩ hn

/-- R133: no match, and the deadline of a bounded wait is reached. -/
theorem waitTick_timeOut
    (hn : ¬(sample levels l = v ∧ (bounded = true → inTime s.eng.cnt.toNat (curTmo s.eng).toNat = true)))
    (hbd : bounded = true) (ht : (curTmo s.eng).toNat ≤ s.eng.cnt.toNat) :
    waitTick levels l v bounded inTime onMatch s = s.timeOut := by
  obtain ⟨hv, hin, _⟩ | ⟨_, _, _, he⟩ | ⟨_, hlt, _⟩ := waitTick_cases levels l v bounded inTime onMatch s
  · exact absurd ⟨hv, hin⟩ hn
  · exact he
  · exact absurd ht (not_le.2 (hlt hbd))

/-- R133, R138: no match, and no deadline reached. -/
theorem waitTick_countOn
    (hn : ¬(sample levels l = v ∧ (bounded = true → inTime s.eng.cnt.toNat (curTmo s.eng).toNat = true)))
    (hlt : bounded = true → s.eng.cnt.toNat < (curTmo s.eng).toNat) :
    waitTick levels l v bounded inTime onMatch s = s.countOn := by
  obtain ⟨hv, hin, _⟩ | ⟨_, hbd, ht, _⟩ | ⟨_, _, he⟩ := waitTick_cases levels l v bounded inTime onMatch s
  · exact absurd ⟨hv, hin⟩ hn
  · exact absurd ht (not_le.2 (hlt hbd))
  · exact he

/-- R133 as one chain of tests: `m` says that the level is seen in time. -/
theorem waitTick_ite {m : Prop} [Decidable m]
    (hm : m ↔ sample levels l = v ∧ (curUnb s.eng = false → inTime s.eng.cnt.toNat (curTmo s.eng).toNat = true)) :
    waitTick levels l v (!curUnb s.eng) inTime onMatch s =
      if m then onMatch s
      else if curUnb s.eng = false ∧ (curTmo s.eng).toNat ≤ s.eng.cnt.toNat then s.timeOut
      else s.countOn := by
  rw [← Bool.not_eq_true'] at hm
  split
  case isTrue h =>
    obtain ⟨hv, ht⟩ := hm.1 h
    exact waitTick_match hv ht
  case isFalse h =>
    have hn := mt hm.2 h
    split
    case isTrue hd => exact waitTick_timeOut hn (by simp [hd.1]) hd.2
    case isFalse hd => exact waitTick_countOn hn fun hbd => not_le.1 fun ht => hd ⟨by simpa using hbd, ht⟩

end

/-- Settles O26: the match needs no deadline test where R58's bound holds. -/
theorem waitlvlTick : Obligations.WaitlvlTick := by
  intro levels s hb hp hcnt
  rw [tick_of_phase levels s hb hp (by decide)]
  exact congrArg _ (waitTick_ite ⟨fun hv => ⟨hv, fun hu => decide_eq_true (hcnt hu)⟩, And.left⟩)

/-- Settles O27: the rise tests e < TMO, the hold needs no deadline test where R58's bound holds. -/
theorem pulseTicks : Obligations.PulseTicks := by
  refine ⟨fun levels s hb hp => ?_, fun levels s hb hp hcnt => ?_⟩ <;>
    rw [tick_of_phase levels s hb hp (by decide)]
  · refine congrArg _ (waitTick_ite (and_congr_right fun _ => ?_))
    cases curUnb s.eng <;> simp [beforeDeadline]
  · refine congrArg _ (waitTick_ite ?_)
    rw [Bool.eq_not]
    exact ⟨fun hv => ⟨hv, fun hu => decide_eq_true (hcnt hu)⟩, And.left⟩

/-- R134 where CNT is below its saturation (R146): the action at a delay's end does not look at CNT. -/
theorem delayTick_unsaturated {d : Nat} {action : State → State} {next : Phase} {s : State}
    (hlt : s.eng.cnt.toNat < 4294967295)
    (hcnt : (action s.countOn).enterPhase next = (action s).enterPhase next) :
    delayTick d action next s =
      if s.eng.cnt.toNat + 1 = d then (action s).enterPhase next else { s with eng.cnt := s.eng.cnt + 1 } := by
  have hmin : min (s.eng.cnt.toNat + 1) 4294967295 = s.eng.cnt.toNat + 1 := by omega
  obtain ⟨hd, he⟩ | ⟨hd, he⟩ := delayTick_cases d action next s <;> rw [hmin] at hd <;> rw [he]
  · rw [if_pos hd, hcnt]
  · have hnext : sat32 (s.eng.cnt.toNat + 1) = s.eng.cnt + 1 := by
      apply BitVec.eq_of_toNat_eq
      rw [sat32_toNat, hmin, BitVec.toNat_add]
      exact (Nat.mod_eq_of_lt (by omega)).symm
    rw [if_neg hd, ← hnext]
    rfl

/-- Settles O28: each delay phase is `delayTick` with its own length and action. -/
theorem delayTicks : Obligations.DelayTicks := by
  intro levels s hb hlt
  refine ⟨fun hp => ?_, fun hp => ?_, fun hp => ?_, fun hp => ?_⟩ <;>
    rw [tick_of_phase levels s hb hp (by decide)]
  · exact congrArg _ (delayTick_unsaturated (action := fun s => s.drive (curLine s.eng) true) hlt rfl)
  · exact congrArg _ (delayTick_unsaturated (action := fun s => s.release (curLine s.eng) .up) hlt rfl)
  · exact congrArg _ (delayTick_unsaturated (action := fun s => s.drive (curTrig s.cfg s.eng) true) hlt rfl)
  · exact congrArg _ (delayTick_unsaturated hlt (endTrigger_countOn_enterPhase s .ecRise))

end Sys2Proof.Machine

/-! Proof of the frame of a tick (`40_timed_wait.md` R130, R133, R134, R140). -/

namespace Sys2Proof.Machine

/-! ## What a tick in phase p leaves unchanged -/

/-- The line is the running command's line, trigger or echo line (R56). -/
def isCurLine (s : State) (l : Line) : Prop :=
  l = curLine s.eng ∨ l = curTrig s.cfg s.eng ∨ l = curEchol s.cfg s.eng

/-- What a tick of a running command in phase p keeps of s where it leads to t. -/
structure PhaseFrame (p : Phase) (s t : State) : Prop where
  /-- The configuration and the command with its latched fields (R56). -/
  command : t.cfg = s.cfg ∧ t.eng.cmd = s.eng.cmd ∧ t.eng.ovr = s.eng.ovr ∧ t.eng.curIdx = s.eng.curIdx
  /-- The outcome record, short of a finish (R140). -/
  outcome : t.eng.busy = s.eng.busy → t.eng.result = s.eng.result ∧ t.eng.res = s.eng.res ∧ t.eng.done = s.eng.done
  /-- What only the end of a bit changes (R166), and DUR at a finish. -/
  bits : p ≠ .dhBitHold → t.eng.sr = s.eng.sr ∧ t.eng.bitcnt = s.eng.bitcnt ∧
    (t.eng.busy = s.eng.busy → t.eng.dur = s.eng.dur)
  /-- The lines, where the phase is no delay (R134). -/
  lines : phaseKind p ≠ .delay → t.eng.lines = s.eng.lines ∧ t.lineEvents = s.lineEvents
  /-- The new line events are on the command's lines. -/
  events : ∃ evs, t.lineEvents = s.lineEvents ++ evs ∧ ∀ e ∈ evs, isCurLine s (eventLine e)

section
variable {p : Phase} {s t : State}

theorem PhaseFrame.refl (p : Phase) (s : State) : PhaseFrame p s s where
  command := ⟨rfl, rfl, rfl, rfl⟩
  outcome := fun _ => ⟨rfl, rfl, rfl⟩
  bits := fun _ => ⟨rfl, rfl, fun _ => rfl⟩
  lines := fun _ => ⟨rfl, rfl⟩
  events := ⟨[], by simp, by simp⟩

/-- PHASE, CNT and RISE are free to change. -/
theorem PhaseFrame.moveTo (h : PhaseFrame p s t) (q : Phase) (c r : Word) :
    PhaseFrame p s { t with eng.phase := q, eng.cnt := c, eng.rise := r } :=
  { h with }

theorem PhaseFrame.countOn (h : PhaseFrame p s t) : PhaseFrame p s t.countOn :=
  h.moveTo _ _ _

theorem PhaseFrame.enterPhase (h : PhaseFrame p s t) (q : Phase) : PhaseFrame p s (t.enterPhase q) :=
  h.moveTo _ _ _

/-- A finish of the running command records any outcome (R140). -/
theorem PhaseFrame.finished (h : PhaseFrame p s t) (hb : s.eng.busy = true) (code : ResCode) (v d : Word) :
    PhaseFrame p s { t with
      eng.busy := false, eng.done := true, eng.res := code, eng.result := v, eng.dur := d } :=
  have hne : false ≠ s.eng.busy := by simp [hb]
  { h with
    outcome := fun hbt => absurd hbt hne
    bits := fun hp => ⟨(h.bits hp).1, (h.bits hp).2.1, fun hbt => absurd hbt hne⟩ }

/-- In DH_BIT_HOLD, SR, BITCNT and DUR are free to change (R166). -/
theorem PhaseFrame.storeBit (h : PhaseFrame .dhBitHold s t) (d : Word) :
    PhaseFrame .dhBitHold s (storeBit d t) :=
  { h with bits := fun hne => absurd rfl hne }

/-- One more line event of a delay phase, with any request for its line (R134). -/
theorem PhaseFrame.lineEvent (h : PhaseFrame p s t) (hk : phaseKind p = .delay) (e : LineEvent)
    (he : isCurLine s (eventLine e)) (ls : Vector LineReq 32) :
    PhaseFrame p s { t with eng.lines := ls, lineEvents := t.lineEvents ++ [e] } where
  command := h.command
  outcome := h.outcome
  bits := h.bits
  lines := fun hne => absurd hk hne
  events := by
    obtain ⟨evs, hevs, hcur⟩ := h.events
    refine ⟨evs ++ [e], by simp [hevs], fun e' he' => ?_⟩
    obtain hmem | hlast := List.mem_append.1 he'
    · exact hcur e' hmem
    · rwa [List.mem_singleton.1 hlast]

theorem PhaseFrame.drive (h : PhaseFrame p s t) (hk : phaseKind p = .delay) {l : Line} (hl : isCurLine s l)
    (v : Level) : PhaseFrame p s (t.drive l v) :=
  h.lineEvent hk (.drive l v) hl _

theorem PhaseFrame.release (h : PhaseFrame p s t) (hk : phaseKind p = .delay) {l : Line} (hl : isCurLine s l)
    (q : Pull) : PhaseFrame p s (t.release l q) :=
  h.lineEvent hk (.release l q) hl _

/-! ## The frame of each phase -/

/-- R133: beside the match, a wait phase times out or counts. -/
theorem PhaseFrame.waitTick {levels : Levels} {l : Line} {v bounded : Bool} {inTime : Nat → Nat → Bool}
    {onMatch : State → State} (hb : s.eng.busy = true) (hm : PhaseFrame p s (onMatch s)) :
    PhaseFrame p s (waitTick levels l v bounded inTime onMatch s) := by
  obtain ⟨_, _, he⟩ | ⟨_, _, _, he⟩ | ⟨_, _, he⟩ := waitTick_cases levels l v bounded inTime onMatch s <;> rw [he]
  · exact hm
  · exact (PhaseFrame.refl p s).finished hb _ _ _
  · exact (PhaseFrame.refl p s).countOn

theorem PhaseFrame.handshakeTick {levels : Levels} {v : Level} {next : Phase}
    (hb : s.eng.busy = true) : PhaseFrame p s (handshakeTick levels v next s) := by
  apply PhaseFrame.waitTick hb
  exact (PhaseFrame.refl p s).enterPhase next

/-- R134: a delay phase counts, and at its end acts on lines. -/
theorem PhaseFrame.delayTick {d : Nat} {action : State → State} {next : Phase}
    (hact : PhaseFrame p s s.countOn → PhaseFrame p s (action s.countOn)) :
    PhaseFrame p s (delayTick d action next s) := by
  have hcount := (PhaseFrame.refl p s).countOn
  obtain ⟨_, he⟩ | ⟨_, he⟩ := delayTick_cases d action next s <;> rw [he]
  · exact (hact hcount).enterPhase next
  · exact hcount

/-- R166, R170: the bit is stored, then the frame extracted or the next bit awaited. -/
theorem PhaseFrame.bitEnd (hb : s.eng.busy = true) (d : Word) : PhaseFrame .dhBitHold s (bitEnd d s) := by
  have hstored := (PhaseFrame.refl .dhBitHold s).storeBit d
  unfold Machine.bitEnd
  simp only
  split
  · exact hstored.finished hb _ _ _
  · exact hstored.enterPhase _

theorem PhaseFrame.endTrigger (h : PhaseFrame p s t) (hk : phaseKind p = .delay) : PhaseFrame p s (endTrigger t) := by
  obtain ⟨hcfg, -, -, hidx⟩ := h.command
  have htrig : isCurLine s (curTrig t.cfg t.eng) := by simp [isCurLine, curTrig, hcfg, hidx]
  have hechol : isCurLine s (curEchol t.cfg t.eng) := by simp [isCurLine, curEchol, hcfg, hidx]
  unfold Machine.endTrigger
  split
  · exact (h.drive hk htrig _).release hk hechol _
  · exact h.drive hk htrig _

theorem phaseTick_frame (levels : Levels) (p : Phase) (s : State) (hb : s.eng.busy = true) :
    PhaseFrame p s (phaseTick levels p s) := by
  have hs := PhaseFrame.refl p s
  cases p with
  | idle => exact hs
  | wlWait => exact .waitTick hb (hs.finished hb _ _ _)
  | pmRise => exact .waitTick hb (hs.moveTo _ _ _)
  | pmHold => exact .waitTick hb (hs.finished hb _ _ _)
  | dhWakeLow =>
    exact .delayTick (action := fun s => s.drive (curLine s.eng) true) fun h => h.drive rfl (.inl rfl) true
  | dhWakeHigh =>
    exact .delayTick (action := fun s => s.release (curLine s.eng) .up) fun h => h.release rfl (.inl rfl) .up
  | dhHs1 => exact .handshakeTick hb
  | dhHs2 => exact .handshakeTick hb
  | dhHs3 => exact .handshakeTick hb
  | dhBitRise => exact .waitTick hb (hs.moveTo _ _ _)
  | dhBitHold => exact .waitTick hb (.bitEnd hb _)
  | ecTrigLow =>
    exact .delayTick (action := fun s => s.drive (curTrig s.cfg s.eng) true) fun h =>
      h.drive rfl (.inr (.inl rfl)) true
  | ecTrigHigh => exact .delayTick fun h => h.endTrigger rfl
  | ecRise => exact .waitTick hb (hs.moveTo _ _ _)
  | ecHold => exact .waitTick hb (hs.finished hb _ _ _)

end

/-- A tick in any state meets the frame of the state's phase. -/
theorem tick_frame (levels : Levels) (s t : State) (h : tick levels s = .next t) : PhaseFrame s.eng.phase s t := by
  obtain ⟨_, rfl⟩ | ⟨hb, _, rfl⟩ := tick_next_cases levels s t h
  · exact .refl _ _
  · exact phaseTick_frame levels _ s hb

/-- Settles O34: the frame of each phase; requests of other lines are kept because requests follow line events. -/
theorem tickFrame : Obligations.TickFrame := by
  intro levels s t h
  obtain ⟨hcfg, hinputs, hdraw, hlog⟩ := tick_env levels s t h
  obtain ⟨⟨-, hcmd, hovr, hidx⟩, houtcome, hbits, hlines, evs, hevs, hcur⟩ := tick_frame levels s t h
  refine ⟨hcfg, hinputs, hdraw, hlog, hcmd, hovr, hidx, houtcome, hbits, hlines, fun l hline htrig hechol => ?_,
    evs, hevs, hcur⟩
  obtain ⟨evs', hevs', hfold⟩ := tick_follows levels s t h
  obtain rfl : evs' = evs := List.append_cancel_left (hevs'.symm.trans hevs)
  rw [hfold]
  refine foldl_applyLineEvent_of_ne _ _ l fun e he hel => ?_
  obtain hl | hl | hl := hel ▸ hcur e he
  · exact hline hl
  · exact htrig hl
  · exact hechol hl

end Sys2Proof.Machine

/-! Proofs of the statements about whole waits and pulse measurements (`40_timed_wait.md` R133, R137 to R143): runs of
ticks without a match, then the tick that matches or times out. -/

namespace Sys2Proof.Machine

/-! ## Every wait phase is one generic wait -/

/-- A legal configuration's running command is in a wait phase of its own (R34, R58). -/
structure State.Waiting (s : State) : Prop where
  config : s.cfg.legal = true
  busy : s.eng.busy = true
  wait : phaseKind s.eng.phase = .wait
  own : phaseOp s.eng.phase = curOp s.eng

/-- The line a wait phase samples: an ECHO's its echo line, the others' CUR.LINE (R141, R143, R164 to R166, R195, R196). -/
def waitLine (s : State) : Line := if phaseOp s.eng.phase = 4 then curEchol s.cfg s.eng else curLine s.eng

/-- The hold phase of a rise phase (R137). -/
def holdAfter : Phase → Option Phase
  | .pmRise => some .pmHold
  | .dhBitRise => some .dhBitHold
  | .ecRise => some .ecHold
  | _ => none

section
variable {s : State} {levels : Levels} {hold : Phase}

/-- An ECHO's waits are bounded (R105, R190). -/
theorem State.Waiting.curUnb_of_echo (hw : s.Waiting) (hp : phaseOp s.eng.phase = 4) : curUnb s.eng = false :=
  curUnb_echo s.eng (hw.own ▸ hp)

theorem State.Waiting.phase_ne_idle (hw : s.Waiting) : s.eng.phase ≠ .idle := by
  intro hp
  have hk := hw.wait
  rw [hp] at hk
  cases hk

/-- R133: a tick of any wait phase is the generic wait for its level on its line. -/
theorem State.Waiting.tick_eq (hw : s.Waiting) (levels : Levels) :
    ∃ inTime onMatch, tick levels s =
      .next (waitTick levels (waitLine s) (awaited s.eng) (!curUnb s.eng) inTime onMatch s) := by
  have hunb := hw.curUnb_of_echo
  have hk := hw.wait
  rw [tick_of_phase levels s hw.busy rfl hw.phase_ne_idle]
  simp only [waitLine, awaited]
  cases hp : s.eng.phase with rw [hp] at hk hunb
  | idle | dhWakeLow | dhWakeHigh | ecTrigLow | ecTrigHigh => cases hk
  | wlWait | pmRise | pmHold | dhBitRise | dhBitHold => exact ⟨_, _, rfl⟩
  | dhHs1 | dhHs2 | dhHs3 => exact ⟨_, (State.enterPhase · _), rfl⟩
  | ecRise | ecHold =>
    rw [hunb rfl]
    exact ⟨_, _, rfl⟩

/-- R137: a tick of any rise phase. -/
theorem State.Waiting.tick_rise_eq (hw : s.Waiting) (hh : holdAfter s.eng.phase = some hold) (levels : Levels) :
    tick levels s = .next (riseTick levels (waitLine s) (awaited s.eng) (!curUnb s.eng) hold s) := by
  have hunb := hw.curUnb_of_echo
  rw [tick_of_phase levels s hw.busy rfl hw.phase_ne_idle]
  simp only [waitLine, awaited]
  cases hp : s.eng.phase with (rw [hp] at hh hunb; cases hh)
  | pmRise | dhBitRise => rfl
  | ecRise =>
    rw [hunb rfl]
    rfl

/-! ## One tick of a wait -/

/-- Neither a match nor the deadline: the tick counts (R133). -/
theorem State.Waiting.tick_countOn (hw : s.Waiting) (hv : sample levels (waitLine s) ≠ awaited s.eng)
    (hlt : curUnb s.eng = false → s.eng.cnt.toNat < (curTmo s.eng).toNat) : tick levels s = .next s.countOn := by
  obtain ⟨inTime, onMatch, ht⟩ := hw.tick_eq levels
  rw [ht, waitTick_countOn (fun hm => hv hm.1) (fun hbd => hlt (by simpa using hbd))]

/-- No match at the deadline of a bounded wait: the tick times out (R133). -/
theorem State.Waiting.tick_timeOut (hw : s.Waiting) (hv : sample levels (waitLine s) ≠ awaited s.eng)
    (hunb : curUnb s.eng = false) (hge : (curTmo s.eng).toNat ≤ s.eng.cnt.toNat) :
    tick levels s = .next s.timeOut := by
  obtain ⟨inTime, onMatch, ht⟩ := hw.tick_eq levels
  rw [ht, waitTick_timeOut (fun hm => hv hm.1) (by simp [hunb]) hge]

/-- The level of a pulse is seen before the deadline (R137). -/
theorem State.Waiting.tick_riseSeen (hw : s.Waiting) (hh : holdAfter s.eng.phase = some hold)
    (hv : sample levels (waitLine s) = awaited s.eng)
    (hlt : curUnb s.eng = false → s.eng.cnt.toNat < (curTmo s.eng).toNat) :
    tick levels s = .next (s.riseSeen hold) := by
  rw [hw.tick_rise_eq hh levels, riseTick, waitTick_match hv fun hbd => ?_]
  simpa [beforeDeadline] using hlt (by simpa using hbd)

/-- R137: the hold phase of a rise is a wait phase of the same command on the same line for the other level. -/
theorem State.Waiting.riseSeen (hw : s.Waiting) (hh : holdAfter s.eng.phase = some hold) :
    (s.riseSeen hold).Waiting ∧ waitLine (s.riseSeen hold) = waitLine s ∧
      awaited (s.riseSeen hold).eng = !awaited s.eng := by
  obtain ⟨hc, hb, _, hop⟩ := hw
  simp only [waitLine, awaited, State.riseSeen_eng]
  cases hp : s.eng.phase with (rw [hp] at hh hop; cases hh)
  | pmRise | dhBitRise | ecRise => exact ⟨⟨hc, hb, rfl, hop⟩, rfl, rfl⟩

end

/-! ## Runs of ticks of a wait -/

/-- s with CNT at n ticks, saturated (R49, R138). -/
def State.countTo (s : State) (n : Nat) : State := { s with eng.cnt := sat32 n }

/-- A constant wave is a number of samples, each at its level. -/
theorem samplesOf_eq_replicate {ls : List Levels} {l : Line} {n : Nat} {v : Level} :
    samplesOf ls l = List.replicate n v ↔ ls.length = n ∧ ∀ lv ∈ ls, sample lv l = v := by
  simp [samplesOf, List.eq_replicate_iff]

/-- A wave with its last sample. -/
theorem samplesOf_eq_concat {ls : List Levels} {l : Line} {wave : List Level} {v : Level}
    (h : samplesOf ls l = wave ++ [v]) :
    ∃ before last, ls = before ++ [last] ∧ samplesOf before l = wave ∧ sample last l = v := by
  obtain ⟨before, rest, rfl, hbefore, hrest⟩ := List.map_eq_append_iff.1 h
  obtain ⟨last, rfl, hlast⟩ := List.map_eq_singleton_iff.1 hrest
  exact ⟨before, last, rfl, hbefore, hlast⟩

/-- A run with its last tick. -/
theorem runTicks_concat {ls : List Levels} {levels : Levels} {s t u : State}
    (hrun : runTicks ls s = .next t) (htick : tick levels t = .next u) (hc : t.cfg.legal = true) :
    runTicks (ls ++ [levels]) s = .next u := by
  rw [runTicks_append _ _ _ _ hrun, runTicks_cons _ _ _ _ hc htick, runTicks_nil]

section
variable {s : State} {ls : List Levels}

theorem State.countTo_countOn (s : State) (n : Nat) : (s.countTo n).countOn = s.countTo (n + 1) := by
  simp only [State.countTo, State.countOn, sat32_succ]

theorem State.countTo_riseSeen (s : State) (n : Nat) (hold : Phase) :
    (s.countTo n).riseSeen hold = ((s.countTo n).riseSeen hold).countTo (n + 1) := by
  simp only [State.countTo, State.riseSeen, sat32_succ]

/-- Any CNT is some number of ticks. -/
theorem State.countTo_cnt (s : State) : s.countTo s.eng.cnt.toNat = s := by
  rw [State.countTo, sat32_word]

theorem State.countTo_toNat_le {s : State} {n : Nat} : (s.countTo n).eng.cnt.toNat ≤ n :=
  (sat32_toNat n).trans_le (min_le_left _ _)

theorem State.Waiting.countTo (hw : s.Waiting) (n : Nat) : (s.countTo n).Waiting :=
  ⟨hw.config, hw.busy, hw.wait, hw.own⟩

/-- While its level does not appear and its deadline is not passed, a wait only counts (R133, R138, R139). -/
theorem State.Waiting.runTicks_count (hw : s.Waiting) (k : Nat)
    (hv : ∀ lv ∈ ls, sample lv (waitLine s) ≠ awaited s.eng)
    (hlt : curUnb s.eng = false → k + ls.length ≤ (curTmo s.eng).toNat) :
    runTicks ls (s.countTo k) = .next (s.countTo (k + ls.length)) := by
  induction ls generalizing k with
  | nil => rfl
  | cons lv ls ih =>
    simp only [List.length_cons] at hlt ⊢
    have htick : tick lv (s.countTo k) = .next (s.countTo (k + 1)) := by
      rw [← State.countTo_countOn]
      refine (hw.countTo k).tick_countOn (hv lv List.mem_cons_self) fun hu => ?_
      exact State.countTo_toNat_le.trans_lt (Nat.lt_of_lt_of_le (by omega) (hlt hu))
    rw [runTicks_cons lv ls _ _ (hw.countTo k).config htick, ih (k + 1) (fun l hl => hv l (List.mem_cons_of_mem _ hl))]
    · rw [Nat.add_right_comm, Nat.add_assoc]
    · intro hu
      have := hlt hu
      omega

/-- The same for a line that stays at the other level for n samples. -/
theorem State.Waiting.runTicks_replicate (hw : s.Waiting) (k : Nat) {n : Nat}
    (hls : samplesOf ls (waitLine s) = List.replicate n (!awaited s.eng))
    (hlt : curUnb s.eng = false → k + n ≤ (curTmo s.eng).toNat) :
    runTicks ls (s.countTo k) = .next (s.countTo (k + n)) := by
  obtain ⟨rfl, hv⟩ := samplesOf_eq_replicate.1 hls
  exact hw.runTicks_count k (fun lv hlv => by simp [hv lv hlv]) hlt

/-- The same for a wait that has just begun. -/
theorem State.Waiting.runTicks_first (hw : s.Waiting) (hcnt : s.eng.cnt = 0) {n : Nat}
    (hls : samplesOf ls (waitLine s) = List.replicate n (!awaited s.eng))
    (hlt : curUnb s.eng = false → n ≤ (curTmo s.eng).toNat) :
    runTicks ls s = .next (s.countTo n) := by
  have hrun := hw.runTicks_replicate 0 hls fun hu => by simpa using hlt hu
  rwa [Nat.zero_add, show s.countTo 0 = s by simpa [hcnt] using s.countTo_cnt] at hrun

/-- R137: a pulse of d >= 1 samples after r others brings a measurement from its rise phase into its hold phase, with
the counts at which the pulse was first seen and its last sample passed. -/
theorem State.Waiting.runTicks_pulse (hw : s.Waiting) {hold : Phase} (hh : holdAfter s.eng.phase = some hold)
    (hcnt : s.eng.cnt = 0) {r d : Nat} (hd : 1 ≤ d)
    (hls : samplesOf ls (waitLine s) = List.replicate r (!awaited s.eng) ++ List.replicate d (awaited s.eng))
    (hlt : curUnb s.eng = false → r + d ≤ (curTmo s.eng).toNat) :
    runTicks ls s = .next (((s.countTo r).riseSeen hold).countTo (r + d)) := by
  obtain ⟨d, rfl⟩ := Nat.exists_eq_add_of_le' hd
  rw [List.replicate_succ] at hls
  obtain ⟨before, pulse, rfl, hbefore, hpulse⟩ := List.map_eq_append_iff.1 hls
  obtain ⟨first, rest, rfl, hfirst, hrest⟩ := List.map_eq_cons_iff.1 hpulse
  have hwr := hw.countTo r
  obtain ⟨hwh, hline, hlevel⟩ := hwr.riseSeen hh
  have hrun : runTicks before s = .next (s.countTo r) :=
    hw.runTicks_first hcnt hbefore fun hu => (Nat.le_add_right r _).trans (hlt hu)
  have hseen : tick first (s.countTo r) = .next (((s.countTo r).riseSeen hold).countTo (r + 1)) := by
    rw [← State.countTo_riseSeen]
    refine hwr.tick_riseSeen hh hfirst fun hu => ?_
    exact State.countTo_toNat_le.trans_lt (Nat.lt_of_lt_of_le (by omega) (hlt hu))
  rw [runTicks_append _ _ _ _ hrun, runTicks_cons _ _ _ _ hwr.config hseen, hwh.runTicks_replicate (r + 1) (n := d)]
  · rw [Nat.add_right_comm, Nat.add_assoc]
  · rw [hline, hlevel, Bool.not_not]
    exact hrest
  · intro hu
    rw [Nat.add_right_comm]
    exact hlt hu

end

/-- Settles O58: an unbounded wait is no ECHO's, so its line is CUR.LINE, and it has no deadline to pass. -/
theorem unboundedWaitGoesOn : Obligations.UnboundedWaitGoesOn := by
  intro s ls hc hb hk hop hunb hv
  have hw : s.Waiting := ⟨hc, hb, hk, hop⟩
  have hline : waitLine s = curLine s.eng := if_neg fun hp => by simp [hw.curUnb_of_echo hp] at hunb
  rw [← hline] at hv
  have hrun := hw.runTicks_count s.eng.cnt.toNat hv (by simp [hunb])
  rwa [State.countTo_cnt] at hrun

/-! ## Whole commands -/

/-- A wait has just begun on a line for a level, with a deadline unless it is unbounded (R133). -/
structure State.WaitsFor (s : State) (line : Line) (lvl : Level) (unb : Bool) (tmo : Timeout) : Prop where
  waiting : s.Waiting
  line_eq : waitLine s = line
  level_eq : awaited s.eng = lvl
  unb_eq : curUnb s.eng = unb
  tmo_eq : (curTmo s.eng).toNat = tmo.toNat
  cnt_eq : s.eng.cnt = 0

section
variable {line : Line} {lvl unb : Bool} {tmo : Timeout} {s : State}

theorem waitlvl_waitsFor (line : Line) (lvl unb : Bool) (tmo : Timeout) (hc : s.cfg.legal = true) :
    (s.started (.waitlvl line lvl unb tmo)).WaitsFor line lvl unb tmo where
  waiting := ⟨hc, rfl, rfl, (opField_waitlvl line lvl unb tmo).symm⟩
  line_eq := lineField_waitlvl line lvl unb tmo
  level_eq := lvlField_waitlvl line lvl unb tmo
  unb_eq := by simp [State.started, startOf, curUnb, curOp]
  tmo_eq := by simp [State.started, startOf]
  cnt_eq := rfl

theorem pulse_waitsFor (line : Line) (lvl unb : Bool) (tmo : Timeout) (hc : s.cfg.legal = true) :
    (s.started (.pulse line lvl unb tmo)).WaitsFor line lvl unb tmo where
  waiting := ⟨hc, rfl, rfl, (opField_pulse line lvl unb tmo).symm⟩
  line_eq := lineField_pulse line lvl unb tmo
  level_eq := lvlField_pulse line lvl unb tmo
  unb_eq := by simp [State.started, startOf, curUnb, curOp]
  tmo_eq := by simp [State.started, startOf]
  cnt_eq := rfl

/-- The wait counts the samples before its level appears. -/
theorem State.WaitsFor.runTicks_before (h : s.WaitsFor line lvl unb tmo) {ls : List Levels} {n : Nat}
    (hls : samplesOf ls line = List.replicate n (!lvl)) (hlt : unb = false → n ≤ tmo.toNat) :
    runTicks ls s = .next (s.countTo n) := by
  obtain ⟨hw, rfl, rfl, rfl, htmo, hcnt⟩ := h
  exact hw.runTicks_first hcnt hls (by simpa only [htmo] using hlt)

/-- The wait is a rise phase, and takes in the pulse. -/
theorem State.WaitsFor.runTicks_pulse (h : s.WaitsFor line lvl unb tmo) {hold : Phase}
    (hh : holdAfter s.eng.phase = some hold) {ls : List Levels} {r d : Nat} (hd : 1 ≤ d)
    (hls : samplesOf ls line = List.replicate r (!lvl) ++ List.replicate d lvl)
    (hlt : unb = false → r + d ≤ tmo.toNat) :
    runTicks ls s = .next (((s.countTo r).riseSeen hold).countTo (r + d)) := by
  obtain ⟨hw, rfl, rfl, rfl, htmo, hcnt⟩ := h
  exact hw.runTicks_pulse hh hcnt hd hls (by simpa only [htmo] using hlt)

/-- R58's bound, where the wait has counted to n. -/
theorem State.WaitsFor.cnt_le (h : s.WaitsFor line lvl unb tmo) {n : Nat} (hlt : unb = false → n ≤ tmo.toNat)
    (hu : curUnb s.eng = false) : (sat32 n).toNat ≤ (curTmo s.eng).toNat := by
  rw [h.tmo_eq]
  exact State.countTo_toNat_le (s := s).trans (hlt (h.unb_eq.symm.trans hu))

end

/-- CUR.TMO as a count (R105, R142). -/
theorem sat32_timeout (tmo : Timeout) : sat32 tmo.toNat = tmo.zeroExtend 32 := by
  apply BitVec.eq_of_toNat_eq
  have := tmo.isLt
  simp only [sat32_toNat, BitVec.truncate_eq_setWidth, BitVec.toNat_setWidth]
  omega

/-- R137, R146: the difference of two counts below saturation. -/
theorem sat32_add_sub_toNat {r d : Nat} (h : r + d ≤ 4294967295) : (sat32 (r + d) - sat32 r).toNat = d := by
  rw [BitVec.toNat_sub, sat32_toNat, sat32_toNat]
  omega

/-- R141: WAITLVL's level is seen. -/
theorem tick_waitlvl_match {levels : Levels} {s : State} (hb : s.eng.busy = true) (hp : s.eng.phase = .wlWait)
    (hv : sample levels (curLine s.eng) = curLvl s.eng)
    (hcnt : curUnb s.eng = false → s.eng.cnt.toNat ≤ (curTmo s.eng).toNat) :
    tick levels s = .next (s.finishValue s.eng.cnt) := by
  rw [waitlvlTick levels s hb hp hcnt, if_pos hv]
  rfl

/-- R137, R143: the end of PULSE's pulse is seen. -/
theorem tick_pulse_end {levels : Levels} {s : State} (hb : s.eng.busy = true) (hp : s.eng.phase = .pmHold)
    (hv : sample levels (curLine s.eng) ≠ curLvl s.eng)
    (hcnt : curUnb s.eng = false → s.eng.cnt.toNat ≤ (curTmo s.eng).toNat) :
    tick levels s = .next (s.finishValue (pulseDuration s.eng)) := by
  rw [pulseTicks.2 levels s hb hp hcnt, if_pos hv]
  rfl

/-- Settles O51: n ticks count, and the next one matches with CNT = n. -/
theorem waitlvlMeasuresElapsed : Obligations.WaitlvlMeasuresElapsed := by
  intro line lvl unb tmo s n ls hc hb hline hls hlt
  have hw := waitlvl_waitsFor (s := s) line lvl unb tmo hc
  refine ⟨s.started (.waitlvl line lvl unb tmo), exec_start _ s hc hb (by simpa [Instr.wf] using hline), rfl, ?_⟩
  obtain ⟨before, lv, rfl, hbefore, hlast⟩ := samplesOf_eq_concat hls
  have hmatch := (congrArg (sample lv) hw.line_eq).trans (hlast.trans hw.level_eq.symm)
  have htick := tick_waitlvl_match (hw.waiting.countTo n).busy rfl hmatch (hw.cnt_le hlt)
  exact runTicks_concat (hw.runTicks_before hbefore hlt) htick hc

/-- Settles O52: TMO ticks count, and the next one is at the deadline. -/
theorem waitlvlTimesOut : Obligations.WaitlvlTimesOut := by
  intro line lvl tmo s ls hc hb hline hls
  have hw := waitlvl_waitsFor (s := s) line lvl false tmo hc
  refine ⟨s.started (.waitlvl line lvl false tmo), exec_start _ s hc hb (by simpa [Instr.wf] using hline), rfl, ?_⟩
  rw [List.replicate_succ'] at hls
  obtain ⟨before, lv, rfl, hbefore, hlast⟩ := samplesOf_eq_concat hls
  have hmiss := (congrArg (sample lv) hw.line_eq).trans (hlast.trans (congrArg _ hw.level_eq.symm))
  have hdeadline : (curTmo (s.started (.waitlvl line lvl false tmo)).eng).toNat ≤ (sat32 tmo.toNat).toNat := by
    have := tmo.isLt
    rw [hw.tmo_eq, sat32_toNat]
    omega
  have htick := (hw.waiting.countTo tmo.toNat).tick_timeOut (Bool.eq_not.1 hmiss) hw.unb_eq hdeadline
  rw [← sat32_timeout]
  exact runTicks_concat (hw.runTicks_before hbefore fun _ => le_rfl) htick hc

/-- Settles O53: the pulse is seen, and the next tick ends it with RISE = r and CNT = r + d. -/
theorem pulseMeasuresDuration : Obligations.PulseMeasuresDuration := by
  intro line lvl unb tmo s r d ls hc hb hline hd hls hlt
  have hw := pulse_waitsFor (s := s) line lvl unb tmo hc
  refine ⟨s.started (.pulse line lvl unb tmo), exec_start _ s hc hb (by simpa [Instr.wf] using hline), rfl, ?_,
    sat32_add_sub_toNat⟩
  obtain ⟨pulse, lv, rfl, hpulse, hlast⟩ := samplesOf_eq_concat hls
  have hended := (congrArg (sample lv) hw.line_eq).trans (hlast.trans (congrArg _ hw.level_eq.symm))
  have hhold := ((hw.waiting.countTo r).riseSeen (hold := .pmHold) rfl).1.countTo (r + d)
  have htick := tick_pulse_end hhold.busy rfl (Bool.eq_not.1 hended) (hw.cnt_le hlt)
  exact runTicks_concat (hw.runTicks_pulse rfl hd hpulse hlt) htick hc

end Sys2Proof.Machine

/-! Proofs of the statements about one frame of DHTREAD (`41_single_wire.md` R161, R164 to R170): its acceptance, the
fold of its bits, and its single ticks. -/

namespace Sys2Proof.Machine

/-- R161: a DHTREAD on one of the lines, accepted while idle, starts on the latched state. -/
theorem exec_dhtread {line : Line} {s : State} (unb chk : Bool) (fld : DhtField) (tmo : Timeout)
    (hc : s.cfg.legal = true) (hb : s.eng.busy = false) (hline : line.toNat < s.cfg.nLines) :
    exec (.dhtread line unb chk fld tmo) s = .next (s.started (.dhtread line unb chk fld tmo)) :=
  exec_start _ s hc hb (by simpa [Instr.wf] using hline)

/-- Settles O20: the start of DHTREAD on the latched state. -/
theorem dhtreadAcceptance : Obligations.DhtreadAcceptance := by
  intro line unb chk fld tmo s hc hb hline
  exact exec_dhtread unb chk fld tmo hc hb hline

/-! ## Bits and bytes of a frame -/

theorem classify_eq_true_iff (d : Word) : classify d = true ↔ 40 < d.toNat := decide_eq_true_iff

/-- Settles O36: the general fact, and the two sides of the threshold. -/
theorem classifierThreshold : Obligations.ClassifierThreshold :=
  ⟨classify_eq_true_iff, by decide, by decide⟩

/-- R166: the new bit enters at SR[0] and shifts the rest up. -/
theorem getLsbD_shiftIn (sr : BitVec 40) (b : Bool) {k : Nat} (hk : k < 40) :
    (shiftIn sr b).getLsbD k = if k = 0 then b else sr.getLsbD (k - 1) := by
  cases k with
  | zero => simp [shiftIn]
  | succ k => simp [shiftIn, hk, BitVec.getLsbD_eq_getElem (Nat.lt_of_succ_lt hk)]

/-- R168: where each bit received stands in SR, the last one lowest. -/
theorem getLsbD_foldl_shiftIn (bits : List Bool) {k : Nat} (hk : k < 40) :
    (bits.foldl shiftIn 0).getLsbD k = bits.reverse.getD k false := by
  induction bits using List.reverseRecOn generalizing k with
  | nil => simp
  | append_singleton bits b ih =>
    rw [List.foldl_concat, getLsbD_shiftIn _ _ hk, List.reverse_concat]
    cases k with
    | zero => rfl
    | succ k => simpa using ih (by omega)

/-- A byte is the sum of its bits times 2^(7-i), the highest bit first (R169). -/
theorem byte_toNat_eq_sum (b : Byte) :
    b.toNat = ((List.range 8).map (fun i => (b.getLsbD (7 - i)).toNat * 2 ^ (7 - i))).sum := by
  have hbits : Nat.ofBits (fun i : Fin 8 => b.toNat.testBit i) = b.toNat := by
    rw [Nat.ofBits_testBit, Nat.mod_eq_of_lt b.isLt]
  simp [Nat.ofBits_succ, List.range_succ, BitVec.getLsbD] at hbits ⊢
  omega

/-- R168, R169: byte j of a frame of 40 bits, counted from the highest, is made of the bits 8j to 8j + 7. -/
theorem frameByte_toNat {bits : List Bool} (hlen : bits.length = 40) {j : Nat} (hj : j < 5) :
    (((bits.foldl shiftIn 0).extractLsb' (32 - 8 * j) 8).toNat) =
      ((List.range 8).map (fun i => (bits.getD (8 * j + i) false).toNat * 2 ^ (7 - i))).sum := by
  rw [byte_toNat_eq_sum]
  refine congrArg List.sum (List.map_congr_left fun i hi => ?_)
  have hi8 : i < 8 := List.mem_range.1 hi
  have hbit : (bits.foldl shiftIn 0).getLsbD (32 - 8 * j + (7 - i)) = bits.getD (8 * j + i) false := by
    rw [getLsbD_foldl_shiftIn bits (by omega), List.getD_reverse _ (by omega)]
    congr 1
    omega
  rw [BitVec.getLsbD_extractLsb', hbit, decide_eq_true (by omega), Bool.true_and]

/-- Settles O37: `frameByte_toNat` for each of the five bytes. -/
theorem frameFoldsMsbFirst : Obligations.FrameFoldsMsbFirst := by
  intro bits hlen sr hsr
  subst hsr
  exact ⟨frameByte_toNat hlen (j := 0) (by decide), frameByte_toNat hlen (j := 1) (by decide),
    frameByte_toNat hlen (j := 2) (by decide), frameByte_toNat hlen (j := 3) (by decide),
    frameByte_toNat hlen (j := 4) (by decide)⟩

/-! ## One tick of a wait of DHTREAD -/

/-- R164: what DH_HS1, DH_HS2 and DH_HS3 have in common, with v the level awaited and `next` the next phase. -/
theorem handshake_phase {p next : Phase} {v : Level}
    (hmem : (p, v, next) ∈ [(Phase.dhHs1, false, Phase.dhHs2), (.dhHs2, true, .dhHs3), (.dhHs3, false, .dhBitRise)]) :
    p ≠ .idle ∧ phaseKind p = .wait ∧ phaseOp p = 3 ∧ (∀ e : Engine, e.phase = p → awaited e = v) ∧
      ∀ levels, phaseTick levels p = handshakeTick levels v next := by
  simp only [List.mem_cons, List.not_mem_nil, or_false, Prod.mk.injEq] at hmem
  obtain ⟨rfl, rfl, rfl⟩ | ⟨rfl, rfl, rfl⟩ | ⟨rfl, rfl, rfl⟩ := hmem <;>
    exact ⟨by decide, rfl, rfl, fun e he => by rw [awaited, he], fun _ => rfl⟩

/-- Settles O30: the three phases are one wait, each with its own level and next phase. -/
theorem handshakeTicks : Obligations.HandshakeTicks := by
  intro levels s p next v hmem hb hp hcnt
  obtain ⟨hne, _, _, _, htick⟩ := handshake_phase hmem
  rw [tick_of_phase levels s hb hp hne, htick]
  exact congrArg _ (waitTick_ite ⟨fun hv => ⟨hv, fun hu => decide_eq_true (hcnt hu)⟩, And.left⟩)

/-- Settles O31: the rise tests e < TMO. -/
theorem bitRiseTick : Obligations.BitRiseTick := by
  intro levels s hb hp
  rw [tick_of_phase levels s hb hp (by decide)]
  refine congrArg _ (waitTick_ite (and_congr_right fun _ => ?_))
  cases curUnb s.eng <;> simp [beforeDeadline]

/-! ## The end of a bit -/

/-- R166, R167: the bit that the duration d gives, shifted in. -/
theorem shiftIn_classify (sr : BitVec 40) (d : Word) :
    shiftIn sr (classify d) = (sr <<< 1) ||| (if 40 < d.toNat then 1 else 0) := by
  have hd := classify_eq_true_iff d
  split
  case isTrue h => rw [hd.2 h]; rfl
  case isFalse h => rw [Bool.eq_false_iff.2 (mt hd.1 h)]; rfl

/-- R170: the byte FLD selects, in bits of SR and CMD. -/
theorem selectField_curFld (e : Engine) (sr : BitVec 40) :
    selectField (curFld e) sr = if e.cmd.getLsbD 19 = false then sr.extractLsb' 32 8 else sr.extractLsb' 16 8 := by
  rw [curFld, fldField]
  cases e.cmd.getLsbD 19 <;> rfl

/-- R170: the code of a whole frame is CHECKSUM exactly where the test is asked for and fails. -/
theorem checksumCode_eq (chk : Bool) (sr : BitVec 40) :
    (if chk && !checksumGood sr then ResCode.checksum else .ok) =
      if chk = true ∧ (sr.extractLsb' 0 8).toNat ≠
          ((sr.extractLsb' 32 8).toNat + (sr.extractLsb' 24 8).toNat + (sr.extractLsb' 16 8).toNat +
            (sr.extractLsb' 8 8).toNat) % 256
      then .checksum else .ok := by
  refine if_congr ?_ rfl rfl
  rw [Bool.and_eq_true, Bool.not_eq_true', checksumGood, decide_eq_false_iff_not]
  rfl

/-- R170 in bits of SR and CMD. -/
theorem extractAndFinish_eq (s : State) :
    extractAndFinish s = { s with eng := { s.eng with
      busy := false, done := true,
      result := (if s.eng.cmd.getLsbD 19 = false then s.eng.sr.extractLsb' 32 8
        else s.eng.sr.extractLsb' 16 8).zeroExtend 32,
      res := if s.eng.cmd.getLsbD 20 = true ∧ (s.eng.sr.extractLsb' 0 8).toNat ≠
          ((s.eng.sr.extractLsb' 32 8).toNat + (s.eng.sr.extractLsb' 24 8).toNat + (s.eng.sr.extractLsb' 16 8).toNat +
            (s.eng.sr.extractLsb' 8 8).toNat) % 256
        then .checksum else .ok } } := by
  rw [← selectField_curFld, ← checksumCode_eq]
  exact congrArg (fun e => { s with eng := e }) (extractAndFinish_eng s)

/-- Settles O32: the match stores the bit, then extracts after the 40th or enters the next rise. -/
theorem bitHoldTick : Obligations.BitHoldTick := by
  intro levels s d sr hb hp hcnt hd hsr
  have hstored : storeBit d s =
      { s with eng := { s.eng with sr := sr, bitcnt := s.eng.bitcnt + 1, dur := d } } := by
    rw [hsr, ← shiftIn_classify]
    rfl
  rw [tick_of_phase levels s hb hp (by decide)]
  refine (congrArg _ (waitTick_ite ⟨fun hv => ⟨hv, fun hu => decide_eq_true (hcnt hu)⟩, And.left⟩)).trans ?_
  simp only [pulseDuration, ← hd, bitEnd, hstored, extractAndFinish_eq]
  rfl

end Sys2Proof.Machine

/-! Proofs of the statements about a whole DHTREAD (`41_single_wire.md` R160 to R176): the wake, which ends after a fixed
number of ticks, then the handshake and the bits, which follow the line. -/

namespace Sys2Proof.Machine

/-! ## Runs of ticks of a delay phase -/

/-- A legal configuration's running command is in a delay phase that has just begun (R34, R134). -/
structure State.Delaying (s : State) : Prop where
  config : s.cfg.legal = true
  busy : s.eng.busy = true
  delay : phaseKind s.eng.phase = .delay
  cnt_eq : s.eng.cnt = 0

/-- What the last tick of a delay phase leaves (R162, R163, R193, R194). -/
def State.delayEnd (s : State) : State :=
  match s.eng.phase with
  | .dhWakeLow => (s.drive (curLine s.eng) true).enterPhase .dhWakeHigh
  | .dhWakeHigh => (s.release (curLine s.eng) .up).enterPhase .dhHs1
  | .ecTrigLow => (s.drive (curTrig s.cfg s.eng) true).enterPhase .ecTrigHigh
  | .ecTrigHigh => (endTrigger s).enterPhase .ecRise
  | _ => s

section
variable {s : State} {ls : List Levels}

/-- R134: one tick of a delay of length d that has counted n ticks. -/
theorem delayTick_countTo {d n : Nat} {action : State → State} {next : Phase} (hn : n < d) (hd : d ≤ 4294967295)
    (hact : (action (s.countTo (n + 1))).enterPhase next = (action s).enterPhase next) :
    delayTick d action next (s.countTo n) =
      if n + 1 = d then (action s).enterPhase next else s.countTo (n + 1) := by
  have hcnt : (s.countTo (n + 1)).eng.cnt.toNat = n + 1 := (sat32_toNat _).trans (min_eq_left (by omega))
  simp only [delayTick, State.countTo_countOn, hcnt, hact]

theorem endTrigger_countTo_enterPhase (s : State) (n : Nat) (p : Phase) :
    (endTrigger (s.countTo n)).enterPhase p = (endTrigger s).enterPhase p := by
  simp only [endTrigger, apply_ite (State.enterPhase · p)]
  rfl

theorem State.Delaying.tick_eq (hd : s.Delaying) (levels : Levels) {n : Nat} (hn : n < delayLength s.eng.phase) :
    tick levels (s.countTo n) =
      .next (if n + 1 = delayLength s.eng.phase then s.delayEnd else s.countTo (n + 1)) := by
  obtain ⟨_, hb, hk, _⟩ := hd
  have hphase {p : Phase} := tick_of_phase levels (s.countTo n) (p := p) hb
  rw [State.delayEnd]
  cases hp : s.eng.phase with rw [hp] at hk hn
  | idle | wlWait | pmRise | pmHold | dhHs1 | dhHs2 | dhHs3 | dhBitRise | dhBitHold | ecRise | ecHold => cases hk
  | dhWakeLow =>
    rw [hphase hp (by decide)]
    exact congrArg _ (delayTick_countTo (action := fun s => s.drive (curLine s.eng) true) hn (by decide) rfl)
  | dhWakeHigh =>
    rw [hphase hp (by decide)]
    exact congrArg _ (delayTick_countTo (action := fun s => s.release (curLine s.eng) .up) hn (by decide) rfl)
  | ecTrigLow =>
    rw [hphase hp (by decide)]
    exact congrArg _ (delayTick_countTo (action := fun s => s.drive (curTrig s.cfg s.eng) true) hn (by decide) rfl)
  | ecTrigHigh =>
    rw [hphase hp (by decide)]
    exact congrArg _ (delayTick_countTo hn (by decide) (endTrigger_countTo_enterPhase s _ .ecRise))

/-- Before its last tick a delay only counts (R134). -/
theorem State.Delaying.runTicks_count (hd : s.Delaying) (hlen : ls.length < delayLength s.eng.phase) :
    runTicks ls s = .next (s.countTo ls.length) := by
  induction ls using List.reverseRecOn with
  | nil => simpa [hd.cnt_eq] using s.countTo_cnt.symm
  | append_singleton ls levels ih =>
    rw [List.length_append, List.length_singleton] at hlen ⊢
    have htick := hd.tick_eq levels (Nat.lt_of_succ_lt hlen)
    rw [if_neg hlen.ne] at htick
    exact runTicks_concat (ih (Nat.lt_of_succ_lt hlen)) htick hd.config

/-- A delay ends with its last tick (R134). -/
theorem State.Delaying.runTicks_delayEnd (hd : s.Delaying) (hlen : ls.length = delayLength s.eng.phase) :
    runTicks ls s = .next s.delayEnd := by
  cases ls using List.reverseRecOn with
  | nil => exact absurd hlen (delayLength_pos _ hd.delay).ne
  | append_singleton ls levels =>
    rw [List.length_append, List.length_singleton] at hlen
    have hlt : ls.length < delayLength s.eng.phase := by omega
    have htick := hd.tick_eq levels hlt
    rw [if_pos hlen] at htick
    exact runTicks_concat (hd.runTicks_count hlt) htick hd.config

end

/-! ## The wake -/

section
variable (s : State) (line : Line) (unb chk : Bool) (fld : DhtField) (tmo : Timeout)

/-- A DHTREAD accepted in s whose line has just been driven high (R162). -/
def State.wakeHigh : State := ((s.started (.dhtread line unb chk fld tmo)).drive line true).enterPhase .dhWakeHigh

/-- A DHTREAD accepted in s whose line has just been released to the sensor (R163). -/
def State.woken : State := ((s.wakeHigh line unb chk fld tmo).release line .up).enterPhase .dhHs1

/-- R161 to R163: the wake's line events. -/
theorem woken_lineEvents : (s.woken line unb chk fld tmo).lineEvents =
    s.lineEvents ++ [.drive line false, .drive line true, .release line .up] := by
  simp [State.woken, State.wakeHigh, State.started, startOf]

variable {s}

theorem started_delaying (hc : s.cfg.legal = true) : (s.started (.dhtread line unb chk fld tmo)).Delaying :=
  ⟨hc, rfl, rfl, rfl⟩

theorem wakeHigh_delaying (hc : s.cfg.legal = true) : (s.wakeHigh line unb chk fld tmo).Delaying :=
  ⟨hc, rfl, rfl, rfl⟩

theorem started_delayEnd : (s.started (.dhtread line unb chk fld tmo)).delayEnd = s.wakeHigh line unb chk fld tmo :=
  congrArg (fun l => ((s.started (.dhtread line unb chk fld tmo)).drive l true).enterPhase .dhWakeHigh)
    (lineField_dhtread line unb chk fld tmo)

theorem wakeHigh_delayEnd : (s.wakeHigh line unb chk fld tmo).delayEnd = s.woken line unb chk fld tmo :=
  congrArg (fun l => ((s.wakeHigh line unb chk fld tmo).release l .up).enterPhase .dhHs1)
    (lineField_dhtread line unb chk fld tmo)

variable {ls : List Levels}

/-- R162. -/
theorem runTicks_wakeLow (hc : s.cfg.legal = true) (hlen : ls.length = 18000) :
    runTicks ls (s.started (.dhtread line unb chk fld tmo)) = .next (s.wakeHigh line unb chk fld tmo) := by
  rw [← started_delayEnd]
  exact (started_delaying line unb chk fld tmo hc).runTicks_delayEnd hlen

/-- R163, with 0 to 39 of its 40 ticks. -/
theorem runTicks_wakeHigh (hc : s.cfg.legal = true) (hlo : 18000 ≤ ls.length) (hhi : ls.length < 18040) :
    runTicks ls (s.started (.dhtread line unb chk fld tmo)) =
      .next ((s.wakeHigh line unb chk fld tmo).countTo (ls.length - 18000)) := by
  have hlow : (ls.take 18000).length = 18000 := List.length_take_of_le hlo
  have hhigh : (ls.drop 18000).length < 40 := by
    rw [List.length_drop]
    omega
  have hrun := runTicks_append _ (ls.drop 18000) _ _ (runTicks_wakeLow line unb chk fld tmo hc hlow)
  rwa [List.take_append_drop, (wakeHigh_delaying line unb chk fld tmo hc).runTicks_count hhigh,
    List.length_drop] at hrun

/-- R176: the line is released 18040 ticks after acceptance. -/
theorem runTicks_wake (hc : s.cfg.legal = true) (hlen : ls.length = 18040) :
    runTicks ls (s.started (.dhtread line unb chk fld tmo)) = .next (s.woken line unb chk fld tmo) := by
  have hlow : (ls.take 18000).length = 18000 := List.length_take_of_le (by omega)
  have hhigh : (ls.drop 18000).length = 40 := by rw [List.length_drop, hlen]
  have hrun := runTicks_append _ (ls.drop 18000) _ _ (runTicks_wakeLow line unb chk fld tmo hc hlow)
  rwa [List.take_append_drop, (wakeHigh_delaying line unb chk fld tmo hc).runTicks_delayEnd hhigh,
    wakeHigh_delayEnd] at hrun

end

theorem drive_line_self (s : State) (l : Line) (v : Level) :
    (s.drive l v).eng.lines[l.toNat] = { s.eng.lines[l.toNat] with oe := true, out := v } :=
  (drive_line s l l v).trans (if_pos rfl)

theorem release_line_self (s : State) (l : Line) (p : Pull) :
    (s.release l p).eng.lines[l.toNat] = { s.eng.lines[l.toNat] with oe := false, pull := p } :=
  (release_line s l l p).trans (if_pos rfl)

/-- Settles O56: the two delays in turn, with the request and the line events that each one's start leaves. -/
theorem dhtreadWakeSequence : Obligations.DhtreadWakeSequence := by
  intro line unb chk fld tmo s ls hc hb hline hlen
  have hexec := exec_dhtread unb chk fld tmo hc hb hline
  obtain hlow | hlo := lt_or_ge ls.length 18000
  · have hrun := (started_delaying line unb chk fld tmo hc).runTicks_count hlow
    have hreq := drive_line_self { s.latch (encode (.dhtread line unb chk fld tmo)) with eng.sr := 0 } line false
    exact ⟨_, _, hexec, hrun, rfl, fun _ => ⟨rfl, congrArg LineReq.oe hreq, congrArg LineReq.out hreq, rfl⟩,
      fun h => absurd hlow (not_lt.2 h), fun h => by omega⟩
  obtain hhigh | hhi := lt_or_ge ls.length 18040
  · have hreq := drive_line_self (s.started (.dhtread line unb chk fld tmo)) line true
    exact ⟨_, _, hexec, runTicks_wakeHigh line unb chk fld tmo hc hlo hhigh, rfl, fun h => absurd h (not_lt.2 hlo),
      fun _ _ => ⟨rfl, congrArg LineReq.oe hreq, congrArg LineReq.out hreq, List.append_assoc _ _ _⟩,
      fun h => absurd hhigh h.not_lt⟩
  · have hreq := release_line_self (s.wakeHigh line unb chk fld tmo) line .up
    exact ⟨_, _, hexec, runTicks_wake line unb chk fld tmo hc (le_antisymm hlen hhi), rfl,
      fun h => absurd h (not_lt.2 hlo), fun _ h => absurd h (not_lt.2 hhi),
      fun _ => ⟨rfl, rfl, congrArg LineReq.oe hreq, congrArg LineReq.pull hreq,
        woken_lineEvents s line unb chk fld tmo⟩⟩

/-! ## The handshake -/

/-- A DHTREAD with the given operands is at the start of the wait phase p (R164, R165). -/
structure State.Reading (s : State) (line : Line) (unb chk : Bool) (fld : DhtField) (tmo : Timeout) (p : Phase) :
    Prop where
  config : s.cfg.legal = true
  busy : s.eng.busy = true
  cmd_eq : s.eng.cmd = encode (.dhtread line unb chk fld tmo)
  phase_eq : s.eng.phase = p
  cnt_eq : s.eng.cnt = 0

section
variable {s : State} {line : Line} {unb chk : Bool} {fld : DhtField} {tmo : Timeout} {p : Phase} {ls : List Levels}

theorem woken_reading (line : Line) (unb chk : Bool) (fld : DhtField) (tmo : Timeout) (hc : s.cfg.legal = true) :
    (s.woken line unb chk fld tmo).Reading line unb chk fld tmo .dhHs1 := ⟨hc, rfl, rfl, rfl, rfl⟩

theorem State.Reading.enterPhase (h : s.Reading line unb chk fld tmo p) (q : Phase) :
    (s.enterPhase q).Reading line unb chk fld tmo q := ⟨h.config, h.busy, h.cmd_eq, rfl, rfl⟩

/-- CUR.LINE of the running DHTREAD (R105). -/
theorem State.Reading.curLine_eq (h : s.Reading line unb chk fld tmo p) : curLine s.eng = line := by
  rw [curLine, h.cmd_eq, lineField_dhtread]

theorem State.Reading.waitsFor (h : s.Reading line unb chk fld tmo p) (hk : phaseKind p = .wait)
    (hop : phaseOp p = 3) : s.WaitsFor line (awaited s.eng) unb tmo where
  waiting := ⟨h.config, h.busy, by rw [h.phase_eq, hk], by rw [h.phase_eq, hop, curOp, h.cmd_eq, opField_dhtread]⟩
  line_eq := by
    rw [waitLine, if_neg (by rw [h.phase_eq, hop]; decide), h.curLine_eq]
  level_eq := rfl
  unb_eq := by simp [curUnb, curOp, h.cmd_eq]
  tmo_eq := by simp [h.cmd_eq]
  cnt_eq := h.cnt_eq

/-- R164: a handshake wait whose level comes n ticks after its start hands over to the next phase. -/
theorem State.Reading.runTicks_handshake (h : s.Reading line unb chk fld tmo p) {v : Level} {next : Phase}
    (hp : (p, v, next) ∈ [(Phase.dhHs1, false, Phase.dhHs2), (.dhHs2, true, .dhHs3), (.dhHs3, false, .dhBitRise)])
    {n : Nat} (hls : samplesOf ls line = waitWave v n) (hlt : unb = false → n ≤ tmo.toNat) :
    runTicks ls s = .next (s.enterPhase next) := by
  obtain ⟨_, hk, hop, hlevel, _⟩ := handshake_phase hp
  have hw := h.waitsFor hk hop
  rw [hlevel s.eng h.phase_eq] at hw
  obtain ⟨before, last, rfl, hbefore, hlast⟩ := samplesOf_eq_concat hls
  have hseen : sample last (curLine s.eng) = v := (congrArg (sample last) h.curLine_eq).trans hlast
  have htick := (handshakeTicks last (s.countTo n) p next v hp h.busy h.phase_eq (hw.cnt_le hlt)).trans
    (congrArg _ (if_pos hseen))
  exact runTicks_concat (hw.runTicks_before hbefore hlt) htick h.config

/-- R164: the three waits in turn; each one's CNT is lost where it ends. -/
theorem State.Reading.runTicks_handshakes (h : s.Reading line unb chk fld tmo .dhHs1) {n1 n2 n3 : Nat}
    (hls : samplesOf ls line = waitWave false n1 ++ waitWave true n2 ++ waitWave false n3)
    (hlt : unb = false → n1 ≤ tmo.toNat ∧ n2 ≤ tmo.toNat ∧ n3 ≤ tmo.toNat) :
    runTicks ls s = .next (s.enterPhase .dhBitRise) := by
  obtain ⟨ls12, ls3, rfl, h12, h3⟩ := List.map_eq_append_iff.1 hls
  obtain ⟨ls1, ls2, rfl, h1, h2⟩ := List.map_eq_append_iff.1 h12
  have hrun1 := h.runTicks_handshake (v := false) (next := .dhHs2) (by simp) h1 fun hu => (hlt hu).1
  have hrun2 := (h.enterPhase .dhHs2).runTicks_handshake (v := true) (next := .dhHs3) (by simp) h2
    fun hu => (hlt hu).2.1
  have hrun3 := (h.enterPhase .dhHs3).runTicks_handshake (v := false) (next := .dhBitRise) (by simp) h3
    fun hu => (hlt hu).2.2
  rw [List.append_assoc, runTicks_append _ _ _ _ hrun1, runTicks_append _ _ _ _ hrun2]
  exact hrun3

/-! ## The bits -/

/-- A bit's measurement that began in s, after its low and its high samples (R165). -/
def State.bitSeen (s : State) (b : Nat × Nat) : State :=
  ((s.countTo b.1).riseSeen .dhBitHold).countTo (b.1 + b.2)

@[simp] theorem State.bitSeen_cfg (s : State) (b : Nat × Nat) : (s.bitSeen b).cfg = s.cfg := rfl

@[simp] theorem State.bitSeen_eng (s : State) (b : Nat × Nat) :
    (s.bitSeen b).eng = { s.eng with rise := sat32 b.1, phase := .dhBitHold, cnt := sat32 (b.1 + b.2) } := rfl

/-- What a bit-slot of b.1 low and b.2 high samples makes of the state at its start (R165, R166). -/
def receiveBit (s : State) (b : Nat × Nat) : State := bitEnd (pulseDuration (s.bitSeen b).eng) (s.bitSeen b)

/-- R167: a bit-slot is classified by the number of its high samples. -/
theorem classify_bitSeen (s : State) {b : Nat × Nat} (h : b.1 + b.2 ≤ 4294967295) :
    classify (pulseDuration (s.bitSeen b).eng) = bitOf b.2 :=
  congrArg (fun d => decide (40 < d)) (sat32_add_sub_toNat h)

/-- R165, R166: one bit-slot, to the tick that ends it. -/
theorem State.Reading.runTicks_bit (h : s.Reading line unb chk fld tmo .dhBitRise) {b : Nat × Nat} (hd : 1 ≤ b.2)
    (hls : samplesOf ls line = pulseWave true b.1 b.2) (hlt : unb = false → b.1 + b.2 ≤ tmo.toNat) :
    runTicks ls s = .next (receiveBit s b) := by
  have hlevel : awaited s.eng = true := by simp only [awaited, h.phase_eq]
  have hw := h.waitsFor rfl rfl
  rw [hlevel] at hw
  obtain ⟨pulse, last, rfl, hpulse, hlast⟩ := samplesOf_eq_concat hls
  have hseen : sample last (curLine s.eng) = !true := (congrArg (sample last) h.curLine_eq).trans hlast
  have hend : tick last (s.bitSeen b) = .next (receiveBit s b) :=
    (tick_of_phase last (s.bitSeen b) (p := .dhBitHold) h.busy rfl (by decide)).trans
      (congrArg _ (waitTick_match hseen fun hbd => decide_eq_true (hw.cnt_le hlt ((Bool.not_eq_true' _).mp hbd))))
  exact runTicks_concat (hw.runTicks_pulse (by rw [h.phase_eq]; rfl) hd hpulse hlt) hend h.config

/-- R166: a bit that is not the 40th goes on to the next one. -/
theorem State.Reading.nextBit (h : s.Reading line unb chk fld tmo .dhBitRise) {b : Nat × Nat}
    (hn : (s.eng.bitcnt + 1).toNat ≠ 40) : (receiveBit s b).Reading line unb chk fld tmo .dhBitRise := by
  have hnext : receiveBit s b =
      (storeBit (pulseDuration (s.bitSeen b).eng) (s.bitSeen b)).enterPhase .dhBitRise := if_neg hn
  rw [hnext]
  constructor
  case config => simpa using h.config
  case busy => simpa using h.busy
  case cmd_eq => simpa using h.cmd_eq
  case phase_eq => rfl
  case cnt_eq => rfl

/-- R166, R170: the 40th bit is stored and the frame extracted. -/
theorem receiveBit_last {b : Nat × Nat} (hn : (s.eng.bitcnt + 1).toNat = 40) :
    ∃ t, receiveBit s b = extractAndFinish t ∧ t.eng.cmd = s.eng.cmd ∧ t.eng.phase = .dhBitHold :=
  ⟨storeBit (pulseDuration (s.bitSeen b).eng) (s.bitSeen b), if_pos hn, rfl, rfl⟩

/-- Between s, at the start of a frame, and t the given bit-slots were received, and no line was touched (R166, R168). -/
structure State.Received (s t : State) (bits : List (Nat × Nat)) : Prop where
  sr_eq : t.eng.sr = frameOf bits
  bitcnt_eq : t.eng.bitcnt = BitVec.ofNat 6 bits.length
  ovr_eq : t.eng.ovr = s.eng.ovr
  events_eq : t.lineEvents = s.lineEvents

theorem bitEnd_kept (d : Word) (s : State) :
    (bitEnd d s).eng.sr = shiftIn s.eng.sr (classify d) ∧ (bitEnd d s).eng.bitcnt = s.eng.bitcnt + 1 ∧
      (bitEnd d s).eng.ovr = s.eng.ovr ∧ (bitEnd d s).lineEvents = s.lineEvents := by
  dsimp only [bitEnd]
  split
  case isTrue => simp
  case isFalse => simp

theorem State.Received.concat {t : State} {bits : List (Nat × Nat)} (h : s.Received t bits) {b : Nat × Nat}
    (hb : b.1 + b.2 ≤ 4294967295) : s.Received (receiveBit t b) (bits ++ [b]) := by
  obtain ⟨hsr, hbitcnt, hovr, hevents⟩ := bitEnd_kept (pulseDuration (t.bitSeen b).eng) (t.bitSeen b)
  rw [classify_bitSeen t hb] at hsr
  refine ⟨hsr.trans ?_, hbitcnt.trans ?_, hovr.trans h.ovr_eq, hevents.trans h.events_eq⟩
  · rw [frameOf, List.foldl_concat]
    exact congrArg (shiftIn · _) h.sr_eq
  · rw [List.length_append, BitVec.ofNat_add]
    exact congrArg (· + 1) h.bitcnt_eq

/-- BITCNT + 1 does not wrap before the frame is full (R146). -/
theorem State.Received.bitcnt_succ {t : State} {bits : List (Nat × Nat)} (h : s.Received t bits)
    (hlen : bits.length < 40) : (t.eng.bitcnt + 1).toNat = bits.length + 1 := by
  rw [h.bitcnt_eq, show (1 : BitVec 6) = BitVec.ofNat 6 1 from rfl, ← BitVec.ofNat_add, BitVec.toNat_ofNat]
  omega

theorem frameWave_concat (bits : List (Nat × Nat)) (b : Nat × Nat) :
    frameWave (bits ++ [b]) = frameWave bits ++ pulseWave true b.1 b.2 := by
  simp [frameWave]

/-- The bit-slots of an unfinished frame, to the start of the next one. -/
theorem State.Reading.runTicks_bits (h : s.Reading line unb chk fld tmo .dhBitRise) (hsr : s.eng.sr = 0)
    (hbitcnt : s.eng.bitcnt = 0) {bits : List (Nat × Nat)} (hlen : bits.length < 40)
    (hbits : ∀ b ∈ bits, 1 ≤ b.2 ∧ b.1 + b.2 ≤ 4294967295)
    (hlt : unb = false → ∀ b ∈ bits, b.1 + b.2 ≤ tmo.toNat)
    (hls : samplesOf ls line = frameWave bits) :
    ∃ t, runTicks ls s = .next t ∧ t.Reading line unb chk fld tmo .dhBitRise ∧ s.Received t bits := by
  induction bits using List.reverseRecOn generalizing ls with
  | nil =>
    obtain rfl : ls = [] := List.map_eq_nil_iff.1 hls
    exact ⟨s, rfl, h, hsr, hbitcnt, rfl, rfl⟩
  | append_singleton bits b ih =>
    rw [List.length_append, List.length_singleton] at hlen
    rw [frameWave_concat] at hls
    obtain ⟨before, slot, rfl, hbefore, hslot⟩ := List.map_eq_append_iff.1 hls
    obtain ⟨t, hrun, hread, hrec⟩ := ih (by omega) (fun b hb => hbits b (List.mem_append_left _ hb))
      (fun hu b hb => hlt hu b (List.mem_append_left _ hb)) hbefore
    obtain ⟨hd, hb⟩ := hbits b List.mem_concat_self
    have hn : (t.eng.bitcnt + 1).toNat ≠ 40 := hrec.bitcnt_succ (by omega) ▸ hlen.ne
    have hrunbit := hread.runTicks_bit hd hslot fun hu => hlt hu b List.mem_concat_self
    rw [runTicks_append _ _ _ _ hrun]
    exact ⟨_, hrunbit, hread.nextBit hn, hrec.concat hb⟩

/-- A whole frame, to the tick that extracts from it (R166, R170). -/
theorem State.Reading.runTicks_frame (h : s.Reading line unb chk fld tmo .dhBitRise) (hsr : s.eng.sr = 0)
    (hbitcnt : s.eng.bitcnt = 0) {bits : List (Nat × Nat)} (hlen : bits.length = 40)
    (hbits : ∀ b ∈ bits, 1 ≤ b.2 ∧ b.1 + b.2 ≤ 4294967295)
    (hlt : unb = false → ∀ b ∈ bits, b.1 + b.2 ≤ tmo.toNat)
    (hls : samplesOf ls line = frameWave bits) :
    ∃ t, runTicks ls s = .next (extractAndFinish t) ∧ t.eng.cmd = encode (.dhtread line unb chk fld tmo) ∧
      t.eng.phase = .dhBitHold ∧ s.Received (extractAndFinish t) bits := by
  cases bits using List.reverseRecOn with
  | nil => cases hlen
  | append_singleton bits b =>
    rw [List.length_append, List.length_singleton] at hlen
    rw [frameWave_concat] at hls
    obtain ⟨before, slot, rfl, hbefore, hslot⟩ := List.map_eq_append_iff.1 hls
    obtain ⟨t, hrun, hread, hrec⟩ := h.runTicks_bits hsr hbitcnt (by omega)
      (fun b hb => hbits b (List.mem_append_left _ hb))
      (fun hu b hb => hlt hu b (List.mem_append_left _ hb)) hbefore
    obtain ⟨hd, hb⟩ := hbits b List.mem_concat_self
    have hn : (t.eng.bitcnt + 1).toNat = 40 := (hrec.bitcnt_succ (by omega)).trans hlen
    obtain ⟨u, hlast, hcmd, hphase⟩ := receiveBit_last (b := b) hn
    have hrunbit := hread.runTicks_bit hd hslot fun hu => hlt hu b List.mem_concat_self
    rw [runTicks_append _ _ _ _ hrun, hrunbit, hlast]
    exact ⟨u, rfl, hcmd.trans hread.cmd_eq, hphase, hlast ▸ hrec.concat hb⟩

/-- R170 for a DHTREAD's frame, by its operands. -/
theorem extractAndFinish_dhtread (hcmd : s.eng.cmd = encode (.dhtread line unb chk fld tmo)) :
    extractAndFinish s = { s with eng := { s.eng with
      busy := false, done := true, result := (selectField fld s.eng.sr).zeroExtend 32,
      res := if chk && !checksumGood s.eng.sr then .checksum else .ok } } := by
  have hfld : curFld s.eng = fld := by rw [curFld, hcmd, fldField_dhtread]
  have hchk : curChk s.eng = chk := by rw [curChk, hcmd, chkField_dhtread]
  subst hfld hchk
  exact congrArg (fun e => { s with eng := e }) (extractAndFinish_eng s)

end

/-- Settles O57: the wake, three handshake waits, 39 bits that go on and the 40th, which extracts. -/
theorem dhtreadDecodesFrame : Obligations.DhtreadDecodesFrame := by
  intro line unb chk fld tmo s n1 n2 n3 bits pre ls hc hb hline hpre hlen hbits hlt hls
  have hexec := exec_dhtread unb chk fld tmo hc hb hline
  obtain ⟨hs, frame, rfl, hhs, hframe⟩ := List.map_eq_append_iff.1 hls
  have hread := woken_reading (s := s) line unb chk fld tmo hc
  have hhandshake := hread.runTicks_handshakes hhs fun hu => by
    obtain ⟨h1, h2, h3, _⟩ := hlt hu
    exact ⟨h1, h2, h3⟩
  obtain ⟨t, hrun, hcmd, hphase, hrec⟩ := (hread.enterPhase .dhBitRise).runTicks_frame rfl rfl hlen hbits
    (fun hu => by
      obtain ⟨_, _, _, hslots⟩ := hlt hu
      exact hslots) hframe
  rw [extractAndFinish_dhtread hcmd] at hrun hrec
  have hwake := runTicks_append pre (hs ++ frame) _ _ (runTicks_wake line unb chk fld tmo hc hpre)
  have hall := (hwake.trans (runTicks_append hs frame _ _ hhandshake)).trans hrun
  obtain ⟨hsr, hbitcnt, hovr, hevents⟩ := hrec
  have hwoken := woken_lineEvents s line unb chk fld tmo
  refine ⟨_, _, hexec, rfl, hall, rfl, hphase, ?_, hsr, ?_, ?_, hevents.trans hwoken, hovr⟩
  · rw [hbitcnt, hlen]
    rfl
  · rw [← hsr]
    cases fld <;> rfl
  · rw [← hsr]
    exact checksumCode_eq chk _

end Sys2Proof.Machine

/-! Proofs of the statements about the acceptance and the single ticks of ECHO (`42_echo.md` R190 to R197). -/

namespace Sys2Proof.Machine

/-! ## The entry of a selector -/

/-- R10: an entry is known by its selector. -/
theorem Config.entry_eq_of_selcode {c : Config} (hc : c.legal = true) {j k : Fin 3}
    (h : (echoEntry c j).selcode = (echoEntry c k).selcode) : j = k := by
  simp only [Config.legal, Config.selectorsDistinct, Bool.and_eq_true, bne_iff_ne] at hc
  obtain ⟨⟨⟨⟨⟨⟨⟨_, ⟨h01, h02⟩, h12⟩, _⟩, _⟩, _⟩, _⟩, _⟩, _⟩ := hc
  fin_cases j <;> fin_cases k
  · rfl
  · exact absurd h h01
  · exact absurd h h02
  · exact absurd h.symm h01
  · rfl
  · exact absurd h h12
  · exact absurd h.symm h02
  · exact absurd h.symm h12
  · rfl

/-- R191: the lookup finds the entry that has the selector. -/
theorem lookupSel_of_selcode {c : Config} (hc : c.legal = true) {k : Fin 3} {sel : BitVec 8}
    (hk : (echoEntry c k).selcode = sel) : lookupSel c sel = some k := by
  cases hl : lookupSel c sel with
  | none => exact absurd hk (lookupSel_none c sel hl k)
  | some j => rw [Config.entry_eq_of_selcode hc ((lookupSel_some c sel j hl).trans hk.symm)]

/-- R11: the aux line is none of the aux entry's own lines. -/
theorem Config.auxLine_ne {c : Config} (hc : c.legal = true) :
    c.auxLine ≠ (echoEntry c c.auxEntry).trig ∧ c.auxLine ≠ (echoEntry c c.auxEntry).echol := by
  simp only [Config.legal, Bool.and_eq_true, bne_iff_ne] at hc
  obtain ⟨⟨_, htrig⟩, hechol⟩ := hc
  exact ⟨htrig, hechol⟩

/-! ## Acceptance -/

/-- s just after it accepted an ECHO on entry k (R80, R191, R192). -/
def State.echoStarted (s : State) (k : Fin 3) (sel : BitVec 8) (tmo : Timeout) : State :=
  { s with
    eng := { s.eng with
      cmd := encode (.echo sel tmo), busy := true, done := false, res := .none, phase := .ecTrigLow, bitcnt := 0,
      result := 0, dur := 0, cnt := 0, rise := 0, curIdx := k,
      lines := (setupEvents s.cfg k).foldl applyLineEvent s.eng.lines }
    lineEvents := s.lineEvents ++ setupEvents s.cfg k }

section
variable {s : State} {sel : BitVec 8}

theorem exec_echo_start (sel : BitVec 8) (tmo : Timeout) (hc : s.cfg.legal = true) (hb : s.eng.busy = false) :
    exec (.echo sel tmo) s = .next (s.started (.echo sel tmo)) :=
  exec_start _ s hc hb rfl

/-- R80, R191, R192: an ECHO on entry k accepted while idle; a command's requests are those its events make. -/
theorem exec_echo_entry {k : Fin 3} (tmo : Timeout) (hc : s.cfg.legal = true) (hb : s.eng.busy = false)
    (hk : (echoEntry s.cfg k).selcode = sel) :
    exec (.echo sel tmo) s = .next (s.echoStarted k sel tmo) := by
  have hlookup := lookupSel_of_selcode hc hk
  have hevents := startOf_lineEvents (.echo sel tmo) (s.latch (encode (.echo sel tmo)))
  have hlines := startOf_lines (.echo sel tmo) (s.latch (encode (.echo sel tmo)))
  simp only [startEvents, State.latch_cfg, hlookup, Option.map_some, Option.getD_some] at hevents hlines
  rw [exec_echo_start sel tmo hc hb, State.started]
  obtain ⟨hnone, _⟩ | ⟨j, hj, he⟩ := startOf_echo_cases sel tmo (s.latch (encode (.echo sel tmo)))
  · simp [hlookup] at hnone
  obtain rfl : k = j := Option.some.inj (hlookup.symm.trans hj)
  rw [he, setupLines_frame] at hevents hlines ⊢
  simp only [State.startPhase, State.latch] at hevents hlines ⊢
  rw [hevents, hlines]
  rfl

end

/-- The last line event on a line decides whether it drives and at what level (R18). -/
theorem line_of_last_drive (before after : List LineEvent) (lines : Vector LineReq 32) (l : Line) (v : Level)
    (h : ∀ e ∈ after, eventLine e ≠ l) :
    ((before ++ .drive l v :: after).foldl applyLineEvent lines)[l.toNat].oe = true ∧
      ((before ++ .drive l v :: after).foldl applyLineEvent lines)[l.toNat].out = v := by
  rw [List.foldl_append, List.foldl_cons, foldl_applyLineEvent_of_ne after _ l h]
  simp [applyLineEvent]

theorem line_of_last_release (before after : List LineEvent) (lines : Vector LineReq 32) (l : Line) (p : Pull)
    (h : ∀ e ∈ after, eventLine e ≠ l) :
    ((before ++ .release l p :: after).foldl applyLineEvent lines)[l.toNat].oe = false ∧
      ((before ++ .release l p :: after).foldl applyLineEvent lines)[l.toNat].pull = p := by
  rw [List.foldl_append, List.foldl_cons, foldl_applyLineEvent_of_ne after _ l h]
  simp [applyLineEvent]

/-- R192, R199: the aux entry's setup drives the aux line high, and then acts on the other lines only. -/
theorem setupEvents_auxEntry {c : Config} (hc : c.legal = true) :
    ∃ evs, setupEvents c c.auxEntry = .drive c.auxLine true :: evs ∧ ∀ e ∈ evs, eventLine e ≠ c.auxLine := by
  obtain ⟨htrig, hechol⟩ := Config.auxLine_ne hc
  unfold setupEvents
  rw [if_pos rfl]
  refine ⟨_, rfl, fun e he => ?_⟩
  split at he
  case isTrue =>
    obtain rfl := List.mem_singleton.1 he
    exact htrig.symm
  case isFalse =>
    obtain rfl | he := List.mem_cons.1 he
    · exact htrig.symm
    · obtain rfl := List.mem_singleton.1 he
      exact hechol.symm

/-- Settles O21: what the setup's last event on each line of the entry makes of it. -/
theorem echoAcceptance : Obligations.EchoAcceptance := by
  intro sel tmo k s hc hb hk
  refine ⟨s.echoStarted k sel tmo, exec_echo_entry tmo hc hb hk, rfl, rfl, fun l htrig hechol haux => ?_, ?_, ?_, ?_⟩
  · refine foldl_applyLineEvent_of_ne _ _ l fun e he hel => ?_
    obtain hl | hl | ⟨hkaux, hl⟩ := eventLine_of_mem_setupEvents he
    · exact htrig (hel.symm.trans hl)
    · exact hechol (hel.symm.trans hl)
    · exact haux hkaux (hel.symm.trans hl)
  · simp only [State.echoStarted, setupEvents, List.append_assoc, List.singleton_append]
    refine line_of_last_drive _ _ _ _ _ fun e he => ?_
    split at he
    case isTrue => cases he
    case isFalse hne =>
      rw [List.mem_singleton.1 he]
      exact hne
  · intro hne
    simp only [State.echoStarted, setupEvents, if_neg hne]
    exact line_of_last_release _ [] _ _ _ (by simp)
  · intro hkaux
    subst hkaux
    obtain ⟨evs, hevs, hne⟩ := setupEvents_auxEntry hc
    simp only [State.echoStarted, hevs]
    exact line_of_last_drive [] evs _ _ _ hne

/-- Settles O22: no entry is found, and the start is the finish. -/
theorem echoUnsupportedSelector : Obligations.EchoUnsupportedSelector := by
  intro sel tmo s hc hb hsel
  rw [exec_echo_start sel tmo hc hb, State.started]
  obtain ⟨_, he⟩ | ⟨k, hk, _⟩ := startOf_echo_cases sel tmo (s.latch (encode (.echo sel tmo)))
  · rw [he]
    rfl
  · exact absurd (lookupSel_some _ sel k hk) (hsel k)

/-! ## Ticks -/

/-- R133 for a bounded wait as one chain of tests: `m` says that the level is seen in time. -/
theorem waitTick_bounded_ite {levels : Levels} {l : Line} {v : Level} {inTime : Nat → Nat → Bool}
    {onMatch : State → State} {s : State} {m : Prop} [Decidable m]
    (hm : m ↔ sample levels l = v ∧ inTime s.eng.cnt.toNat (curTmo s.eng).toNat = true) :
    waitTick levels l v true inTime onMatch s =
      if m then onMatch s
      else if (curTmo s.eng).toNat ≤ s.eng.cnt.toNat then s.timeOut
      else s.countOn := by
  split
  case isTrue h =>
    obtain ⟨hv, ht⟩ := hm.1 h
    exact waitTick_match hv fun _ => ht
  case isFalse h =>
    have hn : ¬(sample levels l = v ∧ (true = true → inTime s.eng.cnt.toNat (curTmo s.eng).toNat = true)) :=
      fun ⟨hv, ht⟩ => h (hm.2 ⟨hv, ht rfl⟩)
    split
    case isTrue hd => exact waitTick_timeOut hn rfl hd
    case isFalse hd => exact waitTick_countOn hn fun _ => not_le.1 hd

/-- Settles O33: the rise tests e < TMO, the hold needs no deadline test where R58's bound holds. -/
theorem echoTicks : Obligations.EchoTicks := by
  refine ⟨fun levels s hb hp => ?_, fun levels s hb hp hcnt => ?_⟩ <;>
    rw [tick_of_phase levels s hb hp (by decide)]
  · exact congrArg _ (waitTick_bounded_ite (and_congr_right fun _ => decide_eq_true_iff.symm))
  · exact congrArg _ (waitTick_bounded_ite ⟨fun hv => ⟨hv, decide_eq_true hcnt⟩, And.left⟩)

/-- Settles O38: 17 * 65535 is below 2^21, so nothing wraps. -/
theorem distanceIsExact : Obligations.DistanceIsExact := by
  intro d hd
  have hexact : (distance d).toNat = 17 * d.toNat :=
    (BitVec.toNat_ofNat _ _).trans (Nat.mod_eq_of_lt (by simp only [distNum]; omega))
  omega

end Sys2Proof.Machine

/-! Proofs of the statements about a whole ECHO (`42_echo.md` R190 to R203): the trigger, which ends after a fixed
number of ticks, then the measurement, which follows the echo line. -/

namespace Sys2Proof.Machine

/-! ## The trigger's line events -/

/-- The end of the trigger pulse changes line requests and the record of line events, nothing else (R194). -/
theorem endTrigger_frame (s : State) :
    endTrigger s = { s with
      eng.lines := (endTrigger s).eng.lines, lineEvents := (endTrigger s).lineEvents } := by
  unfold endTrigger
  split <;> rfl

/-- The end of the trigger pulse does the trigger's line events but the first (R193, R194, R200). -/
theorem endTrigger_lineEvents (s : State) :
    (endTrigger s).lineEvents = s.lineEvents ++ (triggerEvents s.cfg s.eng.curIdx).tail := by
  by_cases hpin : (echoEntry s.cfg s.eng.curIdx).echol = (echoEntry s.cfg s.eng.curIdx).trig <;>
    simp [endTrigger, triggerEvents, curTrig, curEchol, hpin]

/-- R193, R194: the trigger's line actions are on the entry's own lines. -/
theorem eventLine_of_mem_triggerEvents {c : Config} {k : Fin 3} {e : LineEvent} (h : e ∈ triggerEvents c k) :
    eventLine e = (echoEntry c k).trig ∨ eventLine e = (echoEntry c k).echol := by
  obtain htrig | hechol := List.mem_append.1 h
  · simp only [List.mem_cons, List.not_mem_nil, or_false] at htrig
    obtain rfl | rfl := htrig <;> exact .inl rfl
  · split at hechol
    case isTrue =>
      obtain rfl := List.mem_singleton.1 hechol
      exact .inr rfl
    case isFalse => cases hechol

/-! ## The aux line -/

/-- t is in a phase of an ECHO and has, beside s's, only line events of the trigger of s's entry (R193, R194). -/
def State.EchoStep (s t : State) : Prop :=
  phaseOp t.eng.phase = 4 ∧ ∃ evs, t.lineEvents = s.lineEvents ++ evs ∧ evs ⊆ triggerEvents s.cfg s.eng.curIdx

section
variable {s t : State}

theorem State.EchoStep.of_same (hop : phaseOp t.eng.phase = 4) (he : t.lineEvents = s.lineEvents) : s.EchoStep t :=
  ⟨hop, [], by simp [he], List.nil_subset _⟩

/-- R133: a wait acts on no line. -/
theorem State.EchoStep.waitTick {levels : Levels} {l : Line} {v bounded : Bool} {inTime : Nat → Nat → Bool}
    {onMatch : State → State} (hop : phaseOp s.eng.phase = 4) (hm : s.EchoStep (onMatch s)) :
    s.EchoStep (waitTick levels l v bounded inTime onMatch s) := by
  obtain ⟨_, _, he⟩ | ⟨_, _, _, he⟩ | ⟨_, _, he⟩ := waitTick_cases levels l v bounded inTime onMatch s <;> rw [he]
  · exact hm
  · exact .of_same hop rfl
  · exact .of_same hop rfl

/-- R134: a delay acts at its end only. -/
theorem State.EchoStep.delayTick {d : Nat} {action : State → State} {next : Phase} {evs : List LineEvent}
    (hop : phaseOp s.eng.phase = 4) (hnext : phaseOp next = 4)
    (he : (action s.countOn).lineEvents = s.lineEvents ++ evs) (hevs : evs ⊆ triggerEvents s.cfg s.eng.curIdx) :
    s.EchoStep (delayTick d action next s) := by
  obtain ⟨_, ht⟩ | ⟨_, ht⟩ := delayTick_cases d action next s <;> rw [ht]
  · exact ⟨hnext, evs, he, hevs⟩
  · exact .of_same hop rfl

theorem phaseTick_echoStep (levels : Levels) (hop : phaseOp s.eng.phase = 4) :
    s.EchoStep (phaseTick levels s.eng.phase s) := by
  cases hp : s.eng.phase with
  | ecTrigLow =>
    exact .delayTick (action := fun s => s.drive (curTrig s.cfg s.eng) true) hop rfl rfl
      (List.cons_subset.2 ⟨List.mem_cons_self, List.nil_subset _⟩)
  | ecTrigHigh => exact .delayTick hop rfl (endTrigger_lineEvents s.countOn) (List.tail_subset _)
  | ecRise => exact .waitTick hop (.of_same rfl rfl)
  | ecHold => exact .waitTick hop (.of_same hop rfl)
  | _ =>
    rw [hp] at hop
    cases hop

/-- A tick of an ECHO, running or ended, does line events of its trigger only. -/
theorem tick_echoStep {levels : Levels} (hop : phaseOp s.eng.phase = 4) (h : tick levels s = .next t) :
    s.EchoStep t := by
  obtain ⟨_, rfl⟩ | ⟨_, _, rfl⟩ := tick_next_cases levels s t h
  · exact .of_same hop rfl
  · exact phaseTick_echoStep levels hop

end

/-- What every tick keeps, a run of ticks keeps (R130). -/
theorem runTicks_keeps {P : State → Prop} (hlegal : ∀ s, P s → s.cfg.legal = true)
    (htick : ∀ levels s t, P s → tick levels s = .next t → P t) {ls : List Levels} {s t : State} (hs : P s)
    (h : runTicks ls s = .next t) : P t := by
  induction ls generalizing s with
  | nil =>
    cases h
    exact hs
  | cons levels ls ih =>
    rw [runTicks, step_feed levels s (hlegal s hs)] at h
    cases ht : tick levels s with rw [ht] at h
    | next u => exact ih (htick levels s u hs ht) h
    | fault | refused => cases h

/-- A run of an ECHO's ticks from s to t: its entry stays selected, and its line events, which requests follow, are its
trigger's (R193 to R196). -/
structure State.EchoRan (s t : State) : Prop where
  config : t.cfg = s.cfg
  entry : t.eng.curIdx = s.eng.curIdx
  own : phaseOp t.eng.phase = 4
  events : ∃ evs, t.lineEvents = s.lineEvents ++ evs ∧ t.eng.lines = evs.foldl applyLineEvent s.eng.lines ∧
    evs ⊆ triggerEvents s.cfg s.eng.curIdx

theorem State.EchoRan.tick {s t u : State} (h : s.EchoRan t) {levels : Levels} (ht : tick levels t = .next u) :
    s.EchoRan u := by
  obtain ⟨hcfg, hidx, hop, evs, hevs, hlines, hsub⟩ := h
  obtain ⟨hop', new, hnew, hsub'⟩ := tick_echoStep hop ht
  obtain ⟨hcfg', -, -, hidx'⟩ := (tick_frame levels t u ht).command
  obtain ⟨new', hnew', hlines'⟩ := tick_follows levels t u ht
  obtain rfl : new' = new := List.append_cancel_left (hnew'.symm.trans hnew)
  rw [hcfg, hidx] at hsub'
  refine ⟨hcfg'.trans hcfg, hidx'.trans hidx, hop', evs ++ new', ?_, ?_, List.append_subset.2 ⟨hsub, hsub'⟩⟩
  · rw [hnew, hevs, List.append_assoc]
  · rw [hlines', hlines, List.foldl_append]

theorem State.EchoRan.of_runTicks {s t : State} (hc : s.cfg.legal = true) (hop : phaseOp s.eng.phase = 4)
    {ls : List Levels} (h : runTicks ls s = .next t) : s.EchoRan t :=
  runTicks_keeps (P := s.EchoRan) (fun _ hr => hr.config ▸ hc) (fun _ _ _ hr ht => hr.tick ht)
    ⟨rfl, rfl, hop, [], by simp, rfl, List.nil_subset _⟩ h

/-- Settles O50: the setup's first event is the one on the aux line; the trigger's are on the entry's own lines. -/
theorem auxLineDrivenOncePerEcho : Obligations.AuxLineDrivenOncePerEcho := by
  intro sel tmo s t u ls hc hb hk ht hrun
  obtain rfl := Host.Outcome.next.inj ((exec_echo_entry tmo hc hb hk).symm.trans ht)
  obtain ⟨htrig, hechol⟩ := Config.auxLine_ne hc
  obtain ⟨setup, hsetup, hne⟩ := setupEvents_auxEntry hc
  obtain ⟨_, _, _, evs, hevs, hlines, hsub⟩ :=
    State.EchoRan.of_runTicks (s := s.echoStarted s.cfg.auxEntry sel tmo) hc rfl hrun
  have hevs_ne : ∀ e ∈ evs, eventLine e ≠ s.cfg.auxLine := fun e he hel => by
    obtain hl | hl := eventLine_of_mem_triggerEvents (hsub he)
    · exact htrig (hel.symm.trans hl)
    · exact hechol (hel.symm.trans hl)
  refine ⟨⟨setup, congrArg _ hsetup, hne⟩, ⟨evs, hevs, hevs_ne⟩, ?_⟩
  rw [hlines, foldl_applyLineEvent_of_ne evs _ _ hevs_ne]
  simp only [State.echoStarted, hsetup]
  exact line_of_last_drive [] setup _ _ _ hne

/-! ## The trigger's ticks -/

section
variable (s : State) (k : Fin 3) (sel : BitVec 8) (tmo : Timeout)

/-- An ECHO accepted in s whose trigger has just been driven high (R193). -/
def State.trigHigh : State :=
  ((s.echoStarted k sel tmo).drive (echoEntry s.cfg k).trig true).enterPhase .ecTrigHigh

/-- An ECHO accepted in s whose trigger pulse has just ended (R194). -/
def State.listening : State := (endTrigger (s.trigHigh k sel tmo)).enterPhase .ecRise

variable {s}

/-- What the trigger leaves beside the line requests. -/
theorem listening_eq : s.listening k sel tmo =
    { s.echoStarted k sel tmo with
      eng := { (s.echoStarted k sel tmo).eng with
        phase := .ecRise, lines := (endTrigger (s.trigHigh k sel tmo)).eng.lines }
      lineEvents := s.lineEvents ++ setupEvents s.cfg k ++ triggerEvents s.cfg k } := by
  have hevents : (endTrigger (s.trigHigh k sel tmo)).lineEvents =
      s.lineEvents ++ setupEvents s.cfg k ++ triggerEvents s.cfg k :=
    (endTrigger_lineEvents _).trans (List.append_assoc _ _ _)
  rw [← hevents, State.listening, endTrigger_frame]
  rfl

/-- R193, R194: the trigger takes 12 ticks. -/
theorem runTicks_trigger {ls : List Levels} (hc : s.cfg.legal = true) (hlen : ls.length = 12) :
    runTicks ls (s.echoStarted k sel tmo) = .next (s.listening k sel tmo) := by
  have hlow : (ls.take 2).length = 2 := List.length_take_of_le (by omega)
  have hhigh : (ls.drop 2).length = 10 := by rw [List.length_drop, hlen]
  have hstarted : (s.echoStarted k sel tmo).Delaying := ⟨hc, rfl, rfl, rfl⟩
  have htrigHigh : (s.trigHigh k sel tmo).Delaying := ⟨hc, rfl, rfl, rfl⟩
  have hrun := runTicks_append _ (ls.drop 2) _ _ (hstarted.runTicks_delayEnd hlow)
  rw [List.take_append_drop] at hrun
  exact hrun.trans (htrigHigh.runTicks_delayEnd hhigh)

/-- R195: the measurement begins as a bounded wait for the echo line high. -/
theorem listening_waitsFor (hc : s.cfg.legal = true) :
    (s.listening k sel tmo).WaitsFor (echoEntry s.cfg k).echol true false tmo := by
  rw [listening_eq]
  exact {
    waiting := ⟨hc, rfl, rfl, (opField_echo sel tmo).symm⟩
    line_eq := rfl
    level_eq := rfl
    unb_eq := curUnb_echo _ (opField_echo sel tmo)
    tmo_eq := by simp [State.echoStarted]
    cnt_eq := rfl }

end

/-! ## The measurement -/

section
variable {s : State} {line : Line} {tmo : Timeout}

/-- R196, R197: the end of the echo is seen. -/
theorem tick_echo_end {levels : Levels} (hb : s.eng.busy = true) (hp : s.eng.phase = .ecHold)
    (hv : sample levels (curEchol s.cfg s.eng) = false) (hcnt : s.eng.cnt.toNat ≤ (curTmo s.eng).toNat) :
    tick levels s = .next (echoEnd (pulseDuration s.eng) s) := by
  rw [echoTicks.2 levels s hb hp hcnt, if_pos hv]
  rfl

/-- R195: EC_RISE times out at its deadline, whatever is sampled there (R201). -/
theorem tick_ecRise_timeOut {levels : Levels} (hb : s.eng.busy = true) (hp : s.eng.phase = .ecRise)
    (hcnt : (curTmo s.eng).toNat ≤ s.eng.cnt.toNat) : tick levels s = .next s.timeOut := by
  rw [echoTicks.1 levels s hb hp, if_neg fun h => not_le.2 h.2 hcnt, if_pos hcnt]
  rfl

/-- EC_RISE samples the echo line (R195). -/
theorem waitLine_of_ecRise (hp : s.eng.phase = .ecRise) : waitLine s = curEchol s.cfg s.eng :=
  if_pos (by rw [hp]; rfl)

/-- A measurement that began in s, after its low and its high samples (R195). -/
def State.echoSeen (s : State) (r d : Nat) : State := ((s.countTo r).riseSeen .ecHold).countTo (r + d)

/-- R195 to R197: an echo of d >= 1 samples after r low ones, to the tick that ends it. -/
theorem State.WaitsFor.runTicks_echo (h : s.WaitsFor line true false tmo) (hp : s.eng.phase = .ecRise)
    {r d : Nat} (hd : 1 ≤ d) (hlt : r + d ≤ tmo.toNat) {ls : List Levels}
    (hls : samplesOf ls line = pulseWave true r d) :
    runTicks ls s = .next (echoEnd (sat32 (r + d) - sat32 r) (s.echoSeen r d)) := by
  obtain ⟨echo, last, rfl, hecho, hlast⟩ := samplesOf_eq_concat hls
  have hended : sample last (curEchol s.cfg s.eng) = false := by
    rw [← waitLine_of_ecRise hp, h.line_eq, hlast]
    rfl
  have htick : tick last (s.echoSeen r d) = .next (echoEnd (sat32 (r + d) - sat32 r) (s.echoSeen r d)) :=
    tick_echo_end h.waiting.busy rfl hended (h.cnt_le (fun _ => hlt) h.unb_eq)
  exact runTicks_concat (h.runTicks_pulse (by rw [hp]; rfl) hd hecho fun _ => hlt) htick h.waiting.config

/-- CNT is at the deadline after TMO ticks. -/
theorem State.WaitsFor.deadline_le (h : s.WaitsFor line true false tmo) :
    (curTmo s.eng).toNat ≤ (sat32 tmo.toNat).toNat := by
  have := tmo.isLt
  rw [h.tmo_eq, sat32_toNat]
  omega

/-- R198, R201: no echo before the deadline, whatever is sampled at it. -/
theorem State.WaitsFor.runTicks_noRise (h : s.WaitsFor line true false tmo) (hp : s.eng.phase = .ecRise)
    {v : Level} {ls : List Levels} (hls : samplesOf ls line = List.replicate tmo.toNat false ++ [v]) :
    runTicks ls s = .next (s.countTo tmo.toNat).timeOut := by
  obtain ⟨low, last, rfl, hlow, _⟩ := samplesOf_eq_concat hls
  have htick : tick last (s.countTo tmo.toNat) = .next (s.countTo tmo.toNat).timeOut :=
    tick_ecRise_timeOut h.waiting.busy hp h.deadline_le
  exact runTicks_concat (h.runTicks_before hlow fun _ => le_rfl) htick h.waiting.config

/-- R198: an echo that is still high at the deadline. -/
theorem State.WaitsFor.runTicks_stillHigh (h : s.WaitsFor line true false tmo) (hp : s.eng.phase = .ecRise)
    {r d : Nat} (hd : 1 ≤ d) (hsum : r + d = tmo.toNat) {ls : List Levels}
    (hls : samplesOf ls line = List.replicate r false ++ List.replicate d true ++ [true]) :
    runTicks ls s = .next (s.echoSeen r d).timeOut := by
  obtain ⟨echo, last, rfl, hecho, hlast⟩ := samplesOf_eq_concat hls
  have hstill : sample last (curEchol s.cfg s.eng) ≠ false := by
    rw [← waitLine_of_ecRise hp, h.line_eq, hlast]
    decide
  obtain ⟨hhold, _, _⟩ := (h.waiting.countTo r).riseSeen (hold := .ecHold) (by rw [State.countTo, hp]; rfl)
  have htick : tick last (s.echoSeen r d) = .next (s.echoSeen r d).timeOut :=
    (hhold.countTo _).tick_timeOut hstill h.unb_eq (by rw [hsum]; exact h.deadline_le)
  exact runTicks_concat (h.runTicks_pulse (by rw [hp]; rfl) hd hecho fun _ => hsum.le) htick h.waiting.config

/-- R198, R201: a line that rises at its sample r and stays high, or has not risen by the deadline: the measurement
times out with CNT = TMO, in EC_HOLD exactly where the line rose before the deadline. -/
theorem State.WaitsFor.runTicks_noEcho (h : s.WaitsFor line true false tmo) (hp : s.eng.phase = .ecRise) {r : Nat}
    (hr : r ≤ tmo.toNat + 1) {ls : List Levels}
    (hls : samplesOf ls line = List.replicate r false ++ List.replicate (tmo.toNat + 1 - r) true) :
    ∃ t : State, runTicks ls s = .next t.timeOut ∧ t.eng.cnt = tmo.zeroExtend 32 ∧
      t.eng.phase = if r < tmo.toNat then .ecHold else .ecRise := by
  obtain hrise | hrise := lt_or_ge r tmo.toNat
  · have hsum : r + (tmo.toNat - r) = tmo.toNat := Nat.add_sub_of_le hrise.le
    rw [Nat.succ_sub hrise.le, List.replicate_succ', ← List.append_assoc] at hls
    have hrun := h.runTicks_stillHigh hp (Nat.sub_pos_of_lt hrise) hsum hls
    exact ⟨_, hrun, (congrArg sat32 hsum).trans (sat32_timeout tmo), (if_pos hrise).symm⟩
  · have hlow : ∃ v, samplesOf ls line = List.replicate tmo.toNat false ++ [v] := by
      obtain rfl | rfl : r = tmo.toNat ∨ r = tmo.toNat + 1 := by omega
      · exact ⟨true, by simpa using hls⟩
      · exact ⟨false, by simpa [List.replicate_succ'] using hls⟩
    obtain ⟨v, hlow⟩ := hlow
    exact ⟨_, h.runTicks_noRise hp hlow, sat32_timeout tmo, hp.trans (if_neg (not_lt.2 hrise)).symm⟩

end

/-! ## Whole commands -/

/-- Settles O54: the trigger, then the echo, ended with RISE = r and CNT = r + d. -/
theorem echoMeasuresDistance : Obligations.EchoMeasuresDistance := by
  intro sel tmo k s r d pre ls hc hb hk hpre hd hlt hls
  have hw := listening_waitsFor k sel tmo hc
  have htrigger := runTicks_append pre ls _ _ (runTicks_trigger k sel tmo hc hpre)
  have hrun := htrigger.trans (hw.runTicks_echo rfl hd hlt hls)
  rw [listening_eq] at hrun
  have htmo := tmo.isLt
  have hdur : (sat32 (r + d) - sat32 r).toNat = d := sat32_add_sub_toNat (by omega)
  have hdist : (distance (sat32 (r + d) - sat32 r)).toNat = 17 * d := by
    rw [(distanceIsExact _ (by omega)).1, hdur]
  exact ⟨_, _, exec_echo_entry tmo hc hb hk, rfl, hrun, rfl, rfl, rfl, hdur, hdist,
    congrArg EchoReading.distance hdist, rfl, rfl, rfl⟩

/-- Settles O55: the trigger, then the measurement to its deadline. -/
theorem echoReportsNoEcho : Obligations.EchoReportsNoEcho := by
  intro sel tmo k s r pre ls hc hb hk hpre hr hls
  have hw := listening_waitsFor k sel tmo hc
  obtain ⟨t, hrun, hcnt, hphase⟩ := hw.runTicks_noEcho rfl hr hls
  have htrigger := runTicks_append pre ls _ _ (runTicks_trigger k sel tmo hc hpre)
  exact ⟨_, _, exec_echo_entry tmo hc hb hk, rfl, htrigger.trans hrun, rfl, rfl, rfl, hcnt, hphase, rfl⟩

end Sys2Proof.Machine

/-! Proofs of the statements about outcomes (`60_exceptions.md` R223, R224, R229): every step keeps the outcome record
and the record of bus answers, and no good result of a bounded command is a sentinel. -/

namespace Sys2Proof.Machine

/-! ## The outcome record when a command ends -/

theorem curTmo_le (e : Engine) : (curTmo e).toNat ≤ 65535 := by
  have := (tmoField e.cmd).isLt
  rw [curTmo_toNat]
  omega

theorem phaseKind_of_holdPhase {p : Phase} (h : holdPhase p = true) : phaseKind p = .wait := by
  cases p <;> simp [holdPhase] at h <;> rfl

section
variable {s : State}

/-- Only a DHTREAD counts bits (R58). -/
theorem State.Inv.bitcnt_eq_zero (hi : s.Inv) (hop : curOp s.eng ≠ 3) : s.eng.bitcnt = 0 := by
  have h0 : ¬ 0 < s.eng.bitcnt.toNat := mt hi.stated.bitcnt_command hop
  exact BitVec.eq_of_toNat_eq (by simpa using h0)

/-- R137, R146: a bounded pulse's count has passed its rise, and not the deadline, so it lasts from one tick to TMO. -/
theorem State.Inv.pulseDuration_bounds (hi : s.Inv) (hb : s.eng.busy = true) (hh : holdPhase s.eng.phase = true)
    (hu : curUnb s.eng = false) :
    1 ≤ (pulseDuration s.eng).toNat ∧ (pulseDuration s.eng).toNat ≤ (curTmo s.eng).toNat := by
  have hcnt := hi.stated.wait_count hb (phaseKind_of_holdPhase hh) hu
  have htmo := curTmo_le s.eng
  have hrise : s.eng.rise.toNat < s.eng.cnt.toNat := by
    obtain h | ⟨_, hc⟩ := hi.sequencer.hold_count hb hh
    · exact h
    · have : s.eng.cnt.toNat = 4294967295 := by rw [hc]; rfl
      omega
  rw [pulseDuration, BitVec.toNat_sub]
  omega

/-- R58: a running command has no result yet, so what keeps RES leaves no outcome. -/
theorem State.Inv.record_of_res_kept (hi : s.Inv) (hb : s.eng.busy = true) {t : State}
    (hr : t.eng.res = s.eng.res) : RecordInv t.cfg t.eng :=
  recordInv_of_no_result _ _ (hr.trans (hi.stated.busy_record hb).2.1)

/-- R133, R172: a timeout records the deadline, which is the count, and keeps the phase and the bits received. -/
theorem State.Inv.timeOut_record (hi : s.Inv) (hb : s.eng.busy = true) (hk : phaseKind s.eng.phase = .wait)
    (hu : curUnb s.eng = false) (ht : (curTmo s.eng).toNat ≤ s.eng.cnt.toNat) :
    RecordInv s.timeOut.cfg s.timeOut.eng := by
  have hdur : s.eng.cnt = curTmo s.eng :=
    BitVec.eq_of_toNat_eq (le_antisymm (hi.stated.wait_count hb hk hu) ht)
  constructor
  case timeout =>
    exact fun _ => ⟨rfl, hdur, hu, hk, hi.sequencer.busy_phase hb, hi.sequencer.busy_bitcnt hb,
      hi.sequencer.busy_legal hb⟩
  all_goals simp

/-- R141: RESULT and DUR are the count at the match. -/
theorem State.Inv.waitlvl_record (hi : s.Inv) (hb : s.eng.busy = true) (hp : s.eng.phase = .wlWait) :
    RecordInv s.cfg (s.finishValue s.eng.cnt).eng := by
  have hop : curOp s.eng = 1 := by rw [← hi.sequencer.busy_phase hb, hp]; rfl
  constructor
  case ok_waitlvl =>
    exact fun _ _ => ⟨rfl, rfl, hp, hi.bitcnt_eq_zero (by simp [hop]),
      fun hu => hi.stated.wait_count hb (by rw [hp]; rfl) hu⟩
  case ok_legal => exact fun _ => hi.sequencer.busy_legal hb
  all_goals simp [curOp, show opField s.eng.cmd = 1 from hop]

/-- R143: RESULT and DUR are the pulse's duration. -/
theorem State.Inv.pulse_record (hi : s.Inv) (hb : s.eng.busy = true) (hp : s.eng.phase = .pmHold) :
    RecordInv s.cfg (s.finishValue (pulseDuration s.eng)).eng := by
  have hop : curOp s.eng = 2 := by rw [← hi.sequencer.busy_phase hb, hp]; rfl
  constructor
  case ok_pulse =>
    exact fun _ _ => ⟨rfl, rfl, hp, hi.bitcnt_eq_zero (by simp [hop]),
      fun hu => hi.pulseDuration_bounds hb (by rw [hp]; rfl) hu⟩
  case ok_legal => exact fun _ => hi.sequencer.busy_legal hb
  all_goals simp [curOp, show opField s.eng.cmd = 2 from hop]

/-- R196, R197: DUR is the echo's duration, and 17 times it does not wrap. -/
theorem State.Inv.echo_record (hi : s.Inv) (hb : s.eng.busy = true) (hp : s.eng.phase = .ecHold) :
    RecordInv s.cfg (echoEnd (pulseDuration s.eng) s).eng := by
  have hop : curOp s.eng = 4 := by rw [← hi.sequencer.busy_phase hb, hp]; rfl
  have hdur := hi.pulseDuration_bounds hb (by rw [hp]; rfl) (curUnb_echo s.eng hop)
  constructor
  case ok_echo =>
    exact fun _ _ => ⟨(distanceIsExact _ (hdur.2.trans (curTmo_le s.eng))).1, rfl, hp,
      hi.bitcnt_eq_zero (by simp [hop]), hdur⟩
  case ok_legal => exact fun _ => hi.sequencer.busy_legal hb
  all_goals simp [curOp, show opField s.eng.cmd = 4 from hop]

/-- R166, R170: after the 40th bit, OK and CHECKSUM record the same, and differ in the checksum test alone. -/
theorem State.Inv.extract_record (hi : s.Inv) (hb : s.eng.busy = true) (hp : s.eng.phase = .dhBitHold)
    (hlast : (s.eng.bitcnt + 1).toNat = frameBits) :
    RecordInv s.cfg (extractAndFinish (Machine.storeBit (pulseDuration s.eng) s)).eng := by
  have hop : curOp s.eng = 3 := by rw [← hi.sequencer.busy_phase hb, hp]; rfl
  have hbits : s.eng.bitcnt + 1 = 40 := BitVec.eq_of_toNat_eq hlast
  have hdur := hi.pulseDuration_bounds hb (by rw [hp]; rfl)
  have hl := hi.sequencer.busy_legal hb
  rw [extractAndFinish_eng]
  split
  case isTrue hbad =>
    obtain ⟨hchk, hsum⟩ := Bool.and_eq_true_iff.1 hbad
    constructor
    case checksum => exact fun _ => ⟨hop, hchk, by simpa using hsum, rfl, rfl, hp, hbits, hdur, hl⟩
    all_goals simp
  case isFalse hgood =>
    constructor
    case ok_dhtread =>
      refine fun _ _ => ⟨rfl, rfl, hp, hbits, fun hchk => ?_, hdur⟩
      by_contra hsum
      exact hgood (Bool.and_eq_true_iff.2 ⟨hchk, by simpa using hsum⟩)
    case ok_legal => exact fun _ => hl
    all_goals simp [curOp, show opField s.eng.cmd = 3 from hop]

/-- R107: a word accepted as illegal. -/
theorem illegal_record (w : Word) (hl : legalWord s.cfg.nLines w = false) :
    RecordInv s.cfg ((s.latch w).endAtAcceptance .illegal).eng := by
  constructor
  case illegal => exact fun _ => ⟨rfl, rfl, rfl, rfl, hl⟩
  all_goals simp

/-- R191: an ECHO whose selector no entry has. -/
theorem unsupported_record (sel : BitVec 8) (tmo : Timeout) (hk : lookupSel s.cfg sel = none) :
    RecordInv s.cfg ((s.latch (encode (.echo sel tmo))).endAtAcceptance .unsupported).eng := by
  constructor
  case unsupported =>
    exact fun _ => ⟨rfl, rfl, rfl, rfl, by simp [curOp], by simpa [curSel] using hk, by simp [Instr.wf]⟩
  all_goals simp

/-! ## The outcome record under a tick -/

/-- R133: a wait phase that does not match times out with the record of R172, or runs on. -/
theorem State.Inv.waitTick_record (hi : s.Inv) (hb : s.eng.busy = true) {p : Phase} (hp : s.eng.phase = p)
    (hk : phaseKind p = .wait) {levels : Levels} {l : Line} {v bounded : Bool} {inTime : Nat → Nat → Bool}
    {onMatch : State → State} (hbd : bounded = !curUnb s.eng)
    (hm : RecordInv (onMatch s).cfg (onMatch s).eng) :
    RecordInv (Machine.waitTick levels l v bounded inTime onMatch s).cfg
      (Machine.waitTick levels l v bounded inTime onMatch s).eng := by
  obtain ⟨_, _, he⟩ | ⟨_, hbt, ht, he⟩ | ⟨_, _, he⟩ := waitTick_cases levels l v bounded inTime onMatch s <;> rw [he]
  · exact hm
  · exact hi.timeOut_record hb (hp ▸ hk) (by simpa [hbd] using hbt) ht
  · exact hi.record_of_res_kept hb rfl

/-- R170: the match that ends a bit finishes after the 40th, else enters the next rise. -/
theorem State.Inv.bitEnd_record (hi : s.Inv) (hb : s.eng.busy = true) (hp : s.eng.phase = .dhBitHold) :
    RecordInv (Machine.bitEnd (pulseDuration s.eng) s).cfg (Machine.bitEnd (pulseDuration s.eng) s).eng := by
  unfold Machine.bitEnd
  simp only
  split
  case isTrue hlast => exact hi.extract_record hb hp hlast
  case isFalse => exact hi.record_of_res_kept hb rfl

/-- R134: a delay phase never finishes. -/
theorem State.Inv.delayTick_record (hi : s.Inv) (hb : s.eng.busy = true) {d : Nat} {action : State → State}
    {next : Phase} (hact : (action s.countOn).eng.res = s.eng.res) :
    RecordInv (Machine.delayTick d action next s).cfg (Machine.delayTick d action next s).eng := by
  obtain ⟨_, he⟩ | ⟨_, he⟩ := delayTick_cases d action next s <;> rw [he]
  · exact hi.record_of_res_kept hb hact
  · exact hi.record_of_res_kept hb rfl

/-- R223: a phase that ends its command leaves the command's record, and every other match keeps RES. -/
theorem State.Inv.phaseTick_record (hi : s.Inv) (hb : s.eng.busy = true) (levels : Levels) :
    RecordInv (Machine.phaseTick levels s.eng.phase s).cfg (Machine.phaseTick levels s.eng.phase s).eng := by
  have hop := hi.sequencer.busy_phase hb
  cases hp : s.eng.phase with
  | idle => exact hi.record_of_res_kept hb rfl
  | wlWait => exact hi.waitTick_record hb hp rfl rfl (hi.waitlvl_record hb hp)
  | pmRise => exact hi.waitTick_record hb hp rfl rfl (hi.record_of_res_kept hb rfl)
  | pmHold => exact hi.waitTick_record hb hp rfl rfl (hi.pulse_record hb hp)
  | dhWakeLow => exact hi.delayTick_record (action := fun s => s.drive (curLine s.eng) true) hb rfl
  | dhWakeHigh => exact hi.delayTick_record (action := fun s => s.release (curLine s.eng) .up) hb rfl
  | dhHs1 => exact hi.waitTick_record hb hp rfl rfl (hi.record_of_res_kept hb rfl)
  | dhHs2 => exact hi.waitTick_record hb hp rfl rfl (hi.record_of_res_kept hb rfl)
  | dhHs3 => exact hi.waitTick_record hb hp rfl rfl (hi.record_of_res_kept hb rfl)
  | dhBitRise => exact hi.waitTick_record hb hp rfl rfl (hi.record_of_res_kept hb rfl)
  | dhBitHold => exact hi.waitTick_record hb hp rfl rfl (hi.bitEnd_record hb hp)
  | ecTrigLow => exact hi.delayTick_record (action := fun s => s.drive (curTrig s.cfg s.eng) true) hb rfl
  | ecTrigHigh => exact hi.delayTick_record hb (by rw [endTrigger_eng]; rfl)
  | ecRise =>
    have hunb := curUnb_echo s.eng (by rw [← hop, hp]; rfl)
    exact hi.waitTick_record hb hp rfl (by simp [hunb]) (hi.record_of_res_kept hb rfl)
  | ecHold =>
    have hunb := curUnb_echo s.eng (by rw [← hop, hp]; rfl)
    exact hi.waitTick_record hb hp rfl (by simp [hunb]) (hi.echo_record hb hp)

theorem State.Inv.tick_record {t : State} (hi : s.Inv) (hrec : RecordInv s.cfg s.eng) (levels : Levels)
    (h : Machine.tick levels s = .next t) : RecordInv t.cfg t.eng := by
  obtain ⟨_, rfl⟩ | ⟨hb, _, rfl⟩ := tick_next_cases levels s t h
  · exact hrec
  · exact hi.phaseTick_record hb levels

/-! ## The outcome record under a host access -/

/-- R80: a command's start leaves no outcome, but for an ECHO it does not support (R191). -/
theorem startOf_record (i : Instr) (s : State) :
    RecordInv (startOf i (s.latch (encode i))).cfg (startOf i (s.latch (encode i))).eng := by
  cases i with
  | waitlvl => exact recordInv_of_no_result _ _ rfl
  | pulse => exact recordInv_of_no_result _ _ rfl
  | dhtread => exact recordInv_of_no_result _ _ rfl
  | echo sel tmo =>
    obtain ⟨hk, he⟩ | ⟨k, _, he⟩ := startOf_echo_cases sel tmo (s.latch (encode (.echo sel tmo))) <;> rw [he]
    · exact unsupported_record sel tmo hk
    · refine recordInv_of_no_result _ _ ?_
      rw [setupLines_frame]
      rfl

/-- R227: an access that accepts no word keeps the outcome; W1C touches DONE and OVR alone (R82). -/
theorem hostAccess_record {addr size : Nat} {kind : AccessKind} {t : State} (hrec : RecordInv s.cfg s.eng)
    (h : hostAccess addr size kind s = .next t) : RecordInv t.cfg t.eng := by
  obtain ⟨log, rfl⟩ | ⟨w, rfl⟩ | ⟨_, rfl⟩ | ⟨_, w, hl, rfl⟩ | ⟨_, i, _, rfl⟩ :=
    hostAccess_next_cases addr size kind s t h
  · exact hrec
  · exact { hrec with }
  · exact { hrec with }
  · exact illegal_record w hl
  · exact startOf_record i s

end

/-- Settles O41: a tick and an access each keep the record, and the reset input leaves no outcome. -/
theorem stepKeepsOutcomeRecord : Obligations.StepKeepsOutcomeRecord := by
  intro s t hi hrec h
  have htaken : s.taken.Inv := hi.of_eng s.taken_cfg s.taken_eng
  rw [← s.taken_cfg, ← s.taken_eng] at hrec
  obtain ⟨_, ⟨_, levels, ht⟩ | ⟨_, addr, size, kind, ha⟩ | ⟨_, rfl⟩⟩ := step_next_cases s t h
  · exact htaken.tick_record hrec levels ht
  · exact hostAccess_record hrec ha
  · exact recordInv_of_no_result _ _ rfl

/-! ## Good results are no sentinels -/

/-- R108: the opcode of a legal word is one of the four commands'. -/
theorem curOp_of_legalWord {n : Nat} {e : Engine} (h : legalWord n e.cmd = true) :
    curOp e = 1 ∨ curOp e = 2 ∨ curOp e = 3 ∨ curOp e = 4 := by
  unfold legalWord at h
  split at h
  case h_1 hop => exact .inl (BitVec.eq_of_toNat_eq hop)
  case h_2 hop => exact .inr (.inl (BitVec.eq_of_toNat_eq hop))
  case h_3 hop => exact .inr (.inr (.inl (BitVec.eq_of_toNat_eq hop)))
  case h_4 hop => exact .inr (.inr (.inr (BitVec.eq_of_toNat_eq hop)))
  case h_5 => cases h

/-- R224: the largest value a bounded command measures is below every sentinel. -/
theorem ne_sentinel_of_le {v : Word} (h : v.toNat ≤ 1114095) :
    v ≠ 0xFFFFFFFF ∧ v ≠ 0xFFFFFFFE ∧ v ≠ 0xFFFFFFFD := by
  refine ⟨?_, ?_, ?_⟩ <;>
  · rintro rfl
    exact absurd h (by decide)

section
variable {c : Config} {e : Engine} (h : RecordInv c e)
include h

/-- R171: CHECKSUM is a DHTREAD's code alone. -/
theorem RecordInv.ok_of_op_ne (hr : e.res = .ok ∨ e.res = .checksum) (hop : curOp e ≠ 3) : e.res = .ok :=
  hr.resolve_right fun hc => hop (h.checksum hc).1

/-- R141, R143, R146. -/
theorem RecordInv.wait_result_le (hr : e.res = .ok) (hu : curUnb e = false) (hop : curOp e = 1 ∨ curOp e = 2) :
    e.result.toNat ≤ 65535 := by
  have htmo := curTmo_le e
  obtain hop | hop := hop
  · obtain ⟨hv, _, _, _, hdl⟩ := h.ok_waitlvl hr hop
    exact hv ▸ (hdl hu).trans htmo
  · obtain ⟨hv, _, _, _, hdl⟩ := h.ok_pulse hr hop
    exact hv ▸ (hdl hu).2.trans htmo

/-- R177: a byte of the frame, whether the checksum is good or not. -/
theorem RecordInv.dhtread_result_le (hr : e.res = .ok ∨ e.res = .checksum) (hop : curOp e = 3) :
    e.result.toNat ≤ 255 := by
  have hv : e.result = (selectField (curFld e) e.sr).zeroExtend 32 := by
    obtain hr | hr := hr
    · exact (h.ok_dhtread hr hop).1
    · obtain ⟨_, _, _, hv, _⟩ := h.checksum hr
      exact hv
  have hbyte := (selectField (curFld e) e.sr).isLt
  rw [hv, BitVec.zeroExtend, BitVec.toNat_setWidth]
  omega

/-- R197: 17 times the largest deadline. -/
theorem RecordInv.echo_result_le (hr : e.res = .ok) (hop : curOp e = 4) : e.result.toNat ≤ 1114095 := by
  obtain ⟨hv, _, _, _, _, hdl⟩ := h.ok_echo hr hop
  have htmo := curTmo_le e
  omega

/-- R223, R225: an illegal word never comes to a good result. -/
theorem RecordInv.legal_of_good (hr : e.res = .ok ∨ e.res = .checksum) : legalWord c.nLines e.cmd = true := by
  obtain hr | hr := hr
  · exact h.ok_legal hr
  · obtain ⟨_, _, _, _, _, _, _, _, hl⟩ := h.checksum hr
    exact hl

/-- R224: the largest of the four bounds. -/
theorem RecordInv.result_le (hr : e.res = .ok ∨ e.res = .checksum) (hu : curUnb e = false) :
    e.result.toNat ≤ 1114095 := by
  have hok := h.ok_of_op_ne hr
  obtain hop | hop | hop | hop := curOp_of_legalWord (h.legal_of_good hr)
  · exact (h.wait_result_le (hok (by simp [hop])) hu (.inl hop)).trans (by decide)
  · exact (h.wait_result_le (hok (by simp [hop])) hu (.inr hop)).trans (by decide)
  · exact (h.dhtread_result_le hr hop).trans (by decide)
  · exact h.echo_result_le (hok (by simp [hop])) hop

end

/-- Settles O44: each command's bound is in the outcome record alone, and the largest is below every sentinel. -/
theorem sentinelsAreNeverMeasured : Obligations.SentinelsAreNeverMeasured := by
  intro s _ hrec hr
  refine ⟨fun hu => ne_sentinel_of_le (hrec.result_le hr hu), fun hu hop => ?_,
    hrec.dhtread_result_le hr, fun hop => hrec.echo_result_le (hrec.ok_of_op_ne hr (by simp [hop])) hop⟩
  have hne : curOp s.eng ≠ 3 := by
    obtain hop | hop := hop <;> simp [hop]
  exact hrec.wait_result_le (hrec.ok_of_op_ne hr hne) hu hop

/-! ## The record of bus answers -/

@[simp] theorem State.taken_busLog (s : State) : s.taken.busLog = s.busLog := by
  unfold State.taken
  split <;> rfl

/-- A write gets no answer, whatever it does (R77). -/
theorem writeReg_busLog {off : Nat} {w : Word} {s t : State} (h : writeReg off w s = .next t) :
    t.busLog = s.busLog := by
  obtain ⟨_, hw⟩ | ⟨_, hw⟩ | ⟨_, _, hw⟩ := writeReg_cases off w s <;> rw [hw] at h
  · obtain ⟨_, rfl⟩ | ⟨_, _, _, rfl⟩ | ⟨_, i, _, rfl⟩ := writeCmd_next_cases w s t h
    · rfl
    · rfl
    · obtain ⟨_, _, hlog⟩ := startOf_env i (s.latch (encode i))
      exact hlog
  · cases h
    rfl
  · cases h
    rfl

/-- An access adds at most its own answer (R73, R78). -/
theorem hostAccess_busLog {addr size : Nat} {kind : AccessKind} {s t : State}
    (h : hostAccess addr size kind s = .next t) : s.busLog <+: t.busLog := by
  obtain ⟨r, ha⟩ | ha | ha | ⟨_, ha⟩ | ⟨w, _, ha⟩ := hostAccess_cases addr size kind s <;> rw [ha] at h
  · cases h
  · cases h
    exact List.prefix_rfl
  · cases h
    exact List.prefix_append _ _
  · cases h
    exact List.prefix_append _ _
  · rw [writeReg_busLog h]

/-- Settles O15: an access adds at most its answer; a tick and a reset keep the record. -/
theorem busErrorsAreNeverCleared : Obligations.BusErrorsAreNeverCleared := by
  intro s t h
  have hprefix : s.taken.busLog <+: t.busLog := by
    obtain ⟨_, ⟨_, levels, ht⟩ | ⟨_, addr, size, kind, ha⟩ | ⟨_, rfl⟩⟩ := step_next_cases s t h
    · obtain ⟨_, _, _, hlog⟩ := tick_env levels _ t ht
      rw [hlog]
    · exact hostAccess_busLog ha
    · exact List.prefix_rfl
  obtain ⟨new, hnew⟩ := hprefix
  exact ⟨new, by rw [← hnew, State.taken_busLog]⟩

end Sys2Proof.Machine

/-! Proofs of the statements about the reset input and about accesses while a command runs (`70_reset_and_hazards.md` R250,
R253). -/

namespace Sys2Proof.Machine

/-- Settles O45: the reset event is `hardReset`, which leaves everything but the engine. -/
theorem resetInputClearsEngine : Obligations.ResetInputClearsEngine := by
  intro s rest hc hi
  rw [step_event s .reset rest hc hi]
  rfl

/-- Settles O47: while busy, an access can leave its answer, clear by W1C, or be dropped; the other cases are idle. -/
theorem noHostAccessEndsCommand : Obligations.NoHostAccessEndsCommand := by
  intro s t rest addr size kind hb hi h
  obtain ⟨hc, _⟩ := step_next_cases s t h
  rw [step_access s rest addr size kind hc hi] at h
  obtain ⟨log, rfl⟩ | ⟨w, rfl⟩ | ⟨_, rfl⟩ | ⟨hidle, _⟩ | ⟨hidle, _⟩ := hostAccess_next_cases addr size kind _ t h
  · exact ⟨rfl, id, rfl⟩
  · exact ⟨rfl, fun hd => by simp [hd], rfl⟩
  · exact ⟨rfl, id, rfl⟩
  · cases hb.symm.trans hidle
  · cases hb.symm.trans hidle

end Sys2Proof.Machine

/-! Proof that a step acts only on lines of the command in CMD (`70_reset_and_hazards.md` R257): the new line events of an
acceptance and of a tick are on lines used, and the requests follow the events. -/

namespace Sys2Proof

/-! ## The command in CMD -/

/-- R102 to R107: a well-formed command is read back from its word. -/
theorem decode_encode {n : Nat} {i : Instr} (h : i.wf n = true) : decode n (encode i) = .ok i := by
  cases i <;> simp_all [decode, decodeLined, Instr.wf]

theorem decode_of_legal_dhtread {n : Nat} {w : Word} (hl : legalWord n w = true) (hop : opField w = 3) :
    decode n w = .ok (.dhtread (lineField w) (unbField w) (chkField w) (fldField w) (tmoField w)) := by
  rw [← Machine.decode_isOk] at hl
  simp only [decode, decodeLined, hop] at hl ⊢
  split_ifs at hl ⊢ <;> simp_all [Except.isOk, Except.toBool]

theorem decode_of_legal_echo {n : Nat} {w : Word} (hl : legalWord n w = true) (hop : opField w = 4) :
    decode n w = .ok (.echo (selField w) (tmoField w)) := by
  rw [← Machine.decode_isOk] at hl
  simp only [decode, hop] at hl ⊢
  split_ifs at hl ⊢ <;> simp_all [Except.isOk, Except.toBool]

end Sys2Proof

namespace Sys2Proof.Machine

/-- A command's start keeps CMD (R35). -/
theorem startOf_cmd (i : Instr) (s : State) : (startOf i s).eng.cmd = s.eng.cmd := by
  cases i with
  | waitlvl => rfl
  | pulse => rfl
  | dhtread => rfl
  | echo sel tmo =>
    obtain ⟨_, he⟩ | ⟨k, _, he⟩ := startOf_echo_cases sel tmo s <;> rw [he]
    · rfl
    · rw [setupLines_frame]
      rfl

/-- The command in CMD uses the line (R257). -/
def State.CmdUses (s : State) (l : Line) : Prop :=
  ∃ i, decode s.cfg.nLines s.eng.cmd = .ok i ∧ usesLine s.cfg i l

/-- Every line event t has more than s is on a line the command in t's CMD uses (R50, R257). -/
def ActsOnOwnLines (s t : State) : Prop :=
  ∃ evs, t.lineEvents = s.lineEvents ++ evs ∧ ∀ e ∈ evs, t.CmdUses (eventLine e)

section
variable {s t : State}

theorem ActsOnOwnLines.of_same (he : t.lineEvents = s.lineEvents) : ActsOnOwnLines s t :=
  ⟨[], by simp [he], by simp⟩

/-! ## Line events of an access -/

/-- A well-formed command just accepted is the one in CMD (R35, R80). -/
theorem started_cmdUses {i : Instr} {l : Line} (hwf : i.wf s.cfg.nLines = true) (hl : usesLine s.cfg i l) :
    (s.started i).CmdUses l := by
  have hcfg : (s.started i).cfg = s.cfg := startOf_cfg i _
  have hcmd : (s.started i).eng.cmd = encode i := startOf_cmd i _
  rw [State.CmdUses, hcfg, hcmd]
  exact ⟨i, decode_encode hwf, hl⟩

theorem hostAccess_actsOnOwnLines {addr size : Nat} {kind : AccessKind}
    (h : hostAccess addr size kind s = .next t) : ActsOnOwnLines s t := by
  obtain ⟨log, rfl⟩ | ⟨w, rfl⟩ | ⟨_, rfl⟩ | ⟨_, w, _, rfl⟩ | ⟨_, i, hwf, rfl⟩ :=
    hostAccess_next_cases addr size kind s t h
  · exact .of_same rfl
  · exact .of_same rfl
  · exact .of_same rfl
  · exact .of_same rfl
  · exact ⟨startEvents s.cfg i, startOf_lineEvents i _,
      fun e he => started_cmdUses hwf (usesLine_of_mem_startEvents he)⟩

/-! ## Line events of a tick -/

/-- A running DHTREAD uses its line. -/
theorem State.Inv.cmdUses_curLine (hi : s.Inv) (hb : s.eng.busy = true) (hop : phaseOp s.eng.phase = 3) :
    s.CmdUses (curLine s.eng) :=
  ⟨_, decode_of_legal_dhtread (hi.sequencer.busy_legal hb) ((hi.sequencer.busy_phase hb).symm.trans hop), rfl⟩

/-- A running ECHO uses the trigger and the echo line of its entry. -/
theorem State.Inv.cmdUses_entry (hi : s.Inv) (hb : s.eng.busy = true) (hop : phaseOp s.eng.phase = 4) {l : Line}
    (hl : l = (echoEntry s.cfg s.eng.curIdx).trig ∨ l = (echoEntry s.cfg s.eng.curIdx).echol) : s.CmdUses l := by
  have hecho : curOp s.eng = 4 := (hi.sequencer.busy_phase hb).symm.trans hop
  exact ⟨_, decode_of_legal_echo (hi.sequencer.busy_legal hb) hecho, s.eng.curIdx,
    hi.sequencer.echo_index hb hecho, hl.imp_right .inl⟩

/-- A tick keeps CMD and the configuration, and with them the lines used (R56). -/
theorem State.CmdUses.tick {l : Line} (hu : s.CmdUses l) {levels : Levels} (h : tick levels s = .next t) :
    t.CmdUses l := by
  obtain ⟨hcfg, hcmd, _, _⟩ := (tick_frame levels s t h).command
  rwa [State.CmdUses, hcfg, hcmd]

/-- R134: a delay that ends in one line event acts on that event's line only. -/
theorem delayTick_eventLine {d : Nat} {action : State → State} {next : Phase} {e : LineEvent}
    (he : (action s.countOn).lineEvents = s.lineEvents ++ [e]) :
    ∃ evs, (delayTick d action next s).lineEvents = s.lineEvents ++ evs ∧ ∀ e' ∈ evs, eventLine e' = eventLine e := by
  obtain ⟨_, ht⟩ | ⟨_, ht⟩ := delayTick_cases d action next s <;> rw [ht]
  · exact ⟨[e], he, fun e' hmem => congrArg eventLine (List.mem_singleton.1 hmem)⟩
  · exact ⟨[], by simp, by simp⟩

/-- R162, R163: the wake acts on CUR.LINE only. -/
theorem phaseTick_wake_eventLine (levels : Levels) {p : Phase} (hp : p = .dhWakeLow ∨ p = .dhWakeHigh) :
    ∃ evs, (phaseTick levels p s).lineEvents = s.lineEvents ++ evs ∧ ∀ e ∈ evs, eventLine e = curLine s.eng := by
  obtain rfl | rfl := hp
  · exact delayTick_eventLine (action := fun s => s.drive (curLine s.eng) true) rfl
  · exact delayTick_eventLine (action := fun s => s.release (curLine s.eng) .up) rfl

/-- The delay phases are the wake of a DHTREAD and the trigger of an ECHO (R34). -/
theorem wake_or_echo_of_delay {p : Phase} (hk : phaseKind p = .delay) :
    (p = .dhWakeLow ∨ p = .dhWakeHigh) ∨ phaseOp p = 4 := by
  cases p with
  | dhWakeLow | dhWakeHigh => simp
  | ecTrigLow | ecTrigHigh => exact .inr rfl
  | _ => cases hk

/-- R257: only a delay acts on lines, the wake's on the line of the DHTREAD and the trigger's on those of the entry. -/
theorem State.Inv.tick_actsOnOwnLines (hi : s.Inv) {levels : Levels} (h : Machine.tick levels s = .next t) :
    ActsOnOwnLines s t := by
  obtain ⟨_, rfl⟩ | ⟨hb, _, ht⟩ := tick_next_cases levels s t h
  · exact .of_same rfl
  by_cases hk : phaseKind s.eng.phase = .delay
  · obtain hwake | hop := wake_or_echo_of_delay hk
    · have hop : phaseOp s.eng.phase = 3 := by obtain hp | hp := hwake <;> rw [hp] <;> rfl
      obtain ⟨evs, he, hline⟩ := phaseTick_wake_eventLine (s := s) levels hwake
      exact ⟨evs, ht ▸ he, fun e hmem => hline e hmem ▸ (hi.cmdUses_curLine hb hop).tick h⟩
    · obtain ⟨_, evs, he, hsub⟩ := tick_echoStep hop h
      exact ⟨evs, he, fun e hmem => (hi.cmdUses_entry hb hop (eventLine_of_mem_triggerEvents (hsub hmem))).tick h⟩
  · exact .of_same ((tick_frame levels s t h).lines hk).2

/-- Requests change only on the lines of the new events (R50). -/
theorem ActsOnOwnLines.cmdUses_of_line_ne (h : ActsOnOwnLines s t) (hf : Follows s t) {l : Line}
    (hl : t.eng.lines[l.toNat] ≠ s.eng.lines[l.toNat]) : t.CmdUses l := by
  obtain ⟨evs, he, hused⟩ := h
  obtain ⟨evs', he', hlines⟩ := hf
  obtain rfl : evs' = evs := List.append_cancel_left (he'.symm.trans he)
  by_contra hn
  rw [hlines] at hl
  exact hl (foldl_applyLineEvent_of_ne _ _ l fun e hmem hel => hn (hel ▸ hused e hmem))

end

/-- Settles O49: a tick and an access act on own lines, and the requests follow the events. -/
theorem commandTouchesOnlyItsLines : Obligations.CommandTouchesOnlyItsLines := by
  intro s t hi h hreset
  have htaken : s.taken.Inv := hi.of_eng s.taken_cfg s.taken_eng
  have hown : ActsOnOwnLines s.taken t := by
    obtain ⟨_, ⟨_, levels, ht⟩ | ⟨_, addr, size, kind, ha⟩ | ⟨hr, _⟩⟩ := step_next_cases s t h
    · exact htaken.tick_actsOnOwnLines ht
    · exact hostAccess_actsOnOwnLines ha
    · exact absurd hr hreset
  rw [ActsOnOwnLines, s.taken_lineEvents] at hown
  exact ⟨fun l => ActsOnOwnLines.cmdUses_of_line_ne hown ((lineRequestsFollowEvents s t h).1 hreset), hown⟩

end Sys2Proof.Machine

/-! Proof of the latest finish (`70_reset_and_hazards.md` R262): the phases of fixed length first, then at most TMO + 1 ticks
for each wait, counted by a bound that every tick lowers. -/

namespace Sys2Proof.Machine

/-! ## The ticks a bounded wait can still take -/

/-- How many more waits a running command can come to after the one it is in (R164 to R166). -/
def waitsAfter (e : Engine) : Nat :=
  match e.phase with
  | .dhHs1 => 42
  | .dhHs2 => 41
  | .dhHs3 => 40
  | .dhBitRise => 39 - e.bitcnt.toNat
  | .dhBitHold => 39 - e.bitcnt.toNat
  | _ => 0

/-- The most ticks a bounded command in a wait phase can still take: what is left of this wait, and TMO + 1 for each one
after it (R133, R137). -/
def ticksLeft (e : Engine) : Nat :=
  waitsAfter e * ((curTmo e).toNat + 1) + ((curTmo e).toNat + 1 - e.cnt.toNat)

/-- The running command is in a wait phase of its own, bounded, with neither its deadline nor its frame passed (R58). -/
structure State.BoundedWait (s : State) : Prop extends s.Waiting where
  bounded : curUnb s.eng = false
  in_time : s.eng.cnt.toNat ≤ (curTmo s.eng).toNat
  bits_left : s.eng.bitcnt.toNat < frameBits

/-- The command is complete, or it is in a bounded wait and has at most n ticks left. -/
def State.EndsWithin (s : State) (n : Nat) : Prop :=
  complete s.eng = true ∨ (s.BoundedWait ∧ ticksLeft s.eng ≤ n)

section
variable {s t : State} {n : Nat}

/-- Another wait of the same command, by the deadline they share. -/
theorem State.BoundedWait.endsWithin (h : s.BoundedWait) (ht : t.Waiting) (hcmd : t.eng.cmd = s.eng.cmd)
    (hbits : t.eng.bitcnt.toNat < frameBits) (hcnt : t.eng.cnt.toNat ≤ (curTmo s.eng).toNat)
    (hleft : waitsAfter t.eng * ((curTmo s.eng).toNat + 1) + ((curTmo s.eng).toNat + 1 - t.eng.cnt.toNat) ≤ n) :
    t.EndsWithin n := by
  have htmo : curTmo t.eng = curTmo s.eng := by rw [curTmo, hcmd, curTmo]
  have hunb : curUnb t.eng = curUnb s.eng := by rw [curUnb, curOp, hcmd, curUnb, curOp]
  exact .inr ⟨⟨ht, hunb.trans h.bounded, by rwa [htmo], hbits⟩, by rwa [ticksLeft, htmo]⟩

/-- The wait goes on, or goes over to the hold phase of its measurement, with one more tick counted (R133, R137). -/
theorem State.BoundedWait.counted (h : s.BoundedWait) (hn : ticksLeft s.eng ≤ n + 1)
    (hlt : s.eng.cnt.toNat < (curTmo s.eng).toNat) (ht : t.Waiting) (hcmd : t.eng.cmd = s.eng.cmd)
    (hbits : t.eng.bitcnt = s.eng.bitcnt) (hcnt : t.eng.cnt = sat32 (s.eng.cnt.toNat + 1))
    (hwaits : waitsAfter t.eng = waitsAfter s.eng) : t.EndsWithin n := by
  have hnext : t.eng.cnt.toNat = s.eng.cnt.toNat + 1 := by
    have := curTmo_le s.eng
    rw [hcnt, sat32_toNat]
    omega
  refine h.endsWithin ht hcmd (hbits ▸ h.bits_left) (hnext ▸ hlt) ?_
  rw [ticksLeft] at hn
  rw [hwaits, hnext]
  omega

/-- The command goes over to its next wait (R164, R166). -/
theorem State.BoundedWait.handedOver (h : s.BoundedWait) (hn : ticksLeft s.eng ≤ n + 1) (ht : t.Waiting)
    (hcmd : t.eng.cmd = s.eng.cmd) (hbits : t.eng.bitcnt.toNat < frameBits) (hcnt : t.eng.cnt = 0)
    (hwaits : waitsAfter t.eng + 1 ≤ waitsAfter s.eng) : t.EndsWithin n := by
  have hzero : t.eng.cnt.toNat = 0 := by simp [hcnt]
  have hcur := h.in_time
  have hsum := Nat.mul_le_mul_right ((curTmo s.eng).toNat + 1) hwaits
  rw [Nat.succ_mul] at hsum
  rw [ticksLeft] at hn
  exact h.endsWithin ht hcmd hbits (by omega) (by omega)

/-! ## One tick -/

/-- R133: a bounded wait matches in time, times out, or counts. -/
theorem State.BoundedWait.waitTick (h : s.BoundedWait) (hn : ticksLeft s.eng ≤ n + 1) {levels : Levels} {l : Line}
    {v bounded : Bool} {inTime : Nat → Nat → Bool} {onMatch : State → State} (hbd : bounded = true)
    (hm : inTime s.eng.cnt.toNat (curTmo s.eng).toNat = true → (onMatch s).EndsWithin n) :
    (waitTick levels l v bounded inTime onMatch s).EndsWithin n := by
  obtain ⟨_, ht, he⟩ | ⟨_, _, _, he⟩ | ⟨_, hlt, he⟩ := waitTick_cases levels l v bounded inTime onMatch s <;> rw [he]
  · exact hm (ht hbd)
  · exact .inl rfl
  · exact h.counted hn (hlt hbd) (h.toWaiting.countTo _) rfl rfl rfl rfl

theorem waitsAfter_riseSeen {hold : Phase} (hh : holdAfter s.eng.phase = some hold) :
    waitsAfter (s.riseSeen hold).eng = waitsAfter s.eng := by
  simp only [waitsAfter, State.riseSeen_eng]
  cases hp : s.eng.phase with (rw [hp] at hh; cases hh)
  | pmRise | dhBitRise | ecRise => rfl

/-- R137: the rise and the hold of a measurement count as one wait. -/
theorem State.BoundedWait.riseTick (h : s.BoundedWait) (hn : ticksLeft s.eng ≤ n + 1) {levels : Levels} {l : Line}
    {v bounded : Bool} {hold : Phase} (hbd : bounded = true) (hh : holdAfter s.eng.phase = some hold) :
    (riseTick levels l v bounded hold s).EndsWithin n :=
  h.waitTick hn hbd fun ht =>
    h.counted hn (of_decide_eq_true ht) (h.toWaiting.riseSeen hh).1 rfl rfl rfl (waitsAfter_riseSeen hh)

theorem State.BoundedWait.handshakeTick (h : s.BoundedWait) (hn : ticksLeft s.eng ≤ n + 1) {levels : Levels}
    {v : Level} {next : Phase} (hk : phaseKind next = .wait) (hop : phaseOp next = phaseOp s.eng.phase)
    (hwaits : waitsAfter (s.enterPhase next).eng + 1 ≤ waitsAfter s.eng) :
    (handshakeTick levels v next s).EndsWithin n :=
  h.waitTick hn (by simp [h.bounded]) fun _ =>
    h.handedOver hn ⟨h.config, h.busy, hk, hop.trans h.own⟩ rfl h.bits_left rfl hwaits

/-- R166: the 40th bit completes the command, any other one leaves a wait less. -/
theorem State.BoundedWait.bitEnd (h : s.BoundedWait) (hn : ticksLeft s.eng ≤ n + 1) (hp : s.eng.phase = .dhBitHold)
    (d : Word) : (bitEnd d s).EndsWithin n := by
  have hbits := bitcnt_succ_toNat s.eng h.bits_left
  have hlt := h.bits_left
  unfold Machine.bitEnd
  simp only
  split
  case isTrue => exact .inl (by simp [complete])
  case isFalse hne =>
    have hown : ((storeBit d s).enterPhase .dhBitRise).Waiting :=
      ⟨h.config, h.busy, rfl, (congrArg phaseOp hp).symm.trans h.own⟩
    rw [storeBit_eng, hbits] at hne
    refine h.handedOver hn hown rfl ?_ rfl ?_ <;>
      simp only [State.enterPhase_eng, storeBit_eng, waitsAfter, hp, hbits]
    · omega
    · simp only [frameBits] at hne hlt
      omega

/-- Every tick of a bounded wait completes the command or leaves it a tick less. -/
theorem State.BoundedWait.phaseTick (h : s.BoundedWait) (hn : ticksLeft s.eng ≤ n + 1) (levels : Levels) :
    (phaseTick levels s.eng.phase s).EndsWithin n := by
  have hk := h.wait
  have hunb : (!curUnb s.eng) = true := by rw [h.bounded, Bool.not_false]
  cases hp : s.eng.phase with
  | wlWait => exact h.waitTick hn hunb fun _ => .inl rfl
  | pmRise => exact h.riseTick hn hunb (by rw [hp]; rfl)
  | pmHold => exact h.waitTick hn hunb fun _ => .inl rfl
  | dhHs1 => exact h.handshakeTick hn rfl (by rw [hp]; rfl) (by simp [waitsAfter, hp])
  | dhHs2 => exact h.handshakeTick hn rfl (by rw [hp]; rfl) (by simp [waitsAfter, hp])
  | dhHs3 =>
    refine h.handshakeTick hn rfl (by rw [hp]; rfl) ?_
    simp only [waitsAfter, hp, State.enterPhase_eng]
    omega
  | dhBitRise => exact h.riseTick hn hunb (by rw [hp]; rfl)
  | dhBitHold => exact h.waitTick hn hunb fun _ => h.bitEnd hn hp _
  | ecRise => exact h.riseTick hn rfl (by rw [hp]; rfl)
  | ecHold => exact h.waitTick hn rfl fun _ => .inl rfl
  | _ =>
    rw [hp] at hk
    cases hk

theorem State.EndsWithin.tick (h : s.EndsWithin (n + 1)) (levels : Levels) :
    ∃ u, Machine.tick levels s = .next u ∧ u.EndsWithin n := by
  obtain hdone | ⟨hw, hleft⟩ := h
  · have hidle : s.eng.busy = false := by simp_all [complete]
    exact ⟨s, tick_idle levels s hidle, .inl hdone⟩
  · exact ⟨_, tick_of_phase levels s hw.busy rfl hw.phase_ne_idle, hw.phaseTick hleft levels⟩

/-! ## Runs of ticks -/

/-- A run of as many ticks as are left completes the command. -/
theorem State.EndsWithin.runTicks {ls : List Levels} (h : s.EndsWithin ls.length) (hc : s.cfg.legal = true) :
    ∃ t, Machine.runTicks ls s = .next t ∧ complete t.eng = true := by
  induction ls generalizing s with
  | nil =>
    obtain hdone | ⟨hw, hleft⟩ := h
    · exact ⟨s, rfl, hdone⟩
    · have hcur := hw.in_time
      rw [ticksLeft, List.length_nil] at hleft
      omega
  | cons levels ls ih =>
    obtain ⟨u, htick, hu⟩ := h.tick levels
    obtain ⟨hcfg, _⟩ := tick_env levels s u htick
    rw [runTicks_cons levels ls s u hc htick]
    exact ih hu (hcfg ▸ hc)

/-- A run that first ends a part of k ticks, whatever is sampled, and then has enough ticks for the waits that follow. -/
theorem State.EndsWithin.runTicks_after {ls : List Levels} {k m : Nat} (hlen : ls.length = k + m)
    (hfirst : ∀ pre : List Levels, pre.length = k → Machine.runTicks pre s = .next t) (ht : t.EndsWithin m)
    (hc : t.cfg.legal = true) : ∃ u, Machine.runTicks ls s = .next u ∧ complete u.eng = true := by
  have hpre : (ls.take k).length = k := List.length_take_of_le (by omega)
  have hrest : (ls.drop k).length = m := by
    rw [List.length_drop]
    omega
  have hrun := runTicks_append _ (ls.drop k) _ _ (hfirst _ hpre)
  rw [List.take_append_drop] at hrun
  rw [hrun]
  exact State.EndsWithin.runTicks (hrest ▸ ht) hc

/-- A bounded wait that has just begun takes at most TMO + 1 ticks, and so does each one after it. -/
theorem State.WaitsFor.endsWithin {line : Line} {lvl : Level} {tmo : Timeout} (h : s.WaitsFor line lvl false tmo)
    (hbits : s.eng.bitcnt = 0) (hn : n = (waitsAfter s.eng + 1) * (tmo.toNat + 1)) : s.EndsWithin n := by
  refine .inr ⟨⟨h.waiting, h.unb_eq, by simp [h.cnt_eq], by simp [hbits, frameBits]⟩, ?_⟩
  rw [ticksLeft, h.tmo_eq, h.cnt_eq, hn, Nat.succ_mul]
  exact Nat.add_le_add_left (Nat.sub_le _ _) _

/-- No tick changes CMD (R56). -/
theorem runTicks_cmd {ls : List Levels} (hc : s.cfg.legal = true) (h : runTicks ls s = .next t) :
    t.eng.cmd = s.eng.cmd := by
  refine (runTicks_keeps (P := fun u => u.cfg = s.cfg ∧ u.eng.cmd = s.eng.cmd) ?_ ?_ ⟨rfl, rfl⟩ h).2
  · exact fun u hu => hu.1 ▸ hc
  · intro levels u v hu htick
    obtain ⟨hcfg, hcmd, _, _⟩ := (tick_frame levels u v htick).command
    exact ⟨hcfg.trans hu.1, hcmd.trans hu.2⟩

/-! ## Whole commands -/

/-- R191, R192: an ECHO whose selector has an entry starts on it. -/
theorem started_echo_eq {k : Fin 3} {sel : BitVec 8} (tmo : Timeout) (hc : s.cfg.legal = true)
    (hb : s.eng.busy = false) (hk : lookupSel s.cfg sel = some k) :
    s.started (.echo sel tmo) = s.echoStarted k sel tmo :=
  Host.Outcome.next.inj
    ((exec_echo_start sel tmo hc hb).symm.trans (exec_echo_entry tmo hc hb (lookupSel_some _ _ _ hk)))

/-- R262: the latest finish of each command, from the state its acceptance leaves. -/
theorem started_completes {i : Instr} {ls : List Levels} (hc : s.cfg.legal = true) (hb : s.eng.busy = false)
    (hbd : boundedCommand i = true) (hlen : ls.length = latestFinish i) :
    ∃ t, runTicks ls (s.started i) = .next t ∧ complete t.eng = true := by
  cases i with
  | waitlvl line lvl unb tmo =>
    obtain rfl : unb = false := by simpa [boundedCommand] using hbd
    have hw := waitlvl_waitsFor (s := s) line lvl false tmo hc
    exact State.EndsWithin.runTicks (hw.endsWithin rfl (hlen.trans (Nat.one_mul _).symm)) hc
  | pulse line lvl unb tmo =>
    obtain rfl : unb = false := by simpa [boundedCommand] using hbd
    have hw := pulse_waitsFor (s := s) line lvl false tmo hc
    exact State.EndsWithin.runTicks (hw.endsWithin rfl (hlen.trans (Nat.one_mul _).symm)) hc
  | dhtread line unb chk fld tmo =>
    obtain rfl : unb = false := by simpa [boundedCommand] using hbd
    have hw := (woken_reading (s := s) line false chk fld tmo hc).waitsFor rfl rfl
    exact State.EndsWithin.runTicks_after hlen (fun _ => runTicks_wake line false chk fld tmo hc)
      (hw.endsWithin rfl rfl) hc
  | echo sel tmo =>
    obtain ⟨_, he⟩ | ⟨k, hk, _⟩ := startOf_echo_cases sel tmo (s.latch (encode (.echo sel tmo)))
    · rw [State.started, he]
      exact State.EndsWithin.runTicks (.inl rfl) hc
    · have hw := listening_waitsFor k sel tmo hc
      have hbits : (s.listening k sel tmo).eng.bitcnt = 0 := by
        rw [listening_eq]
        rfl
      rw [started_echo_eq tmo hc hb hk]
      exact State.EndsWithin.runTicks_after (hlen.trans (Nat.add_assoc _ _ _))
        (fun _ => runTicks_trigger k sel tmo hc) (hw.endsWithin hbits (Nat.one_mul _).symm) hw.waiting.config

end

/-- Settles O59: `started_completes`, and no tick changes CMD. -/
theorem boundedCommandsFinish : Obligations.BoundedCommandsFinish := by
  intro i s ls hc hb hwf hbd hlen
  have hstart : (s.started i).cfg.legal = true := (startOf_cfg i _).symm ▸ hc
  obtain ⟨t, hrun, hdone⟩ := started_completes hc hb hbd hlen
  exact ⟨s.started i, t, exec_start i s hc hb hwf, hrun, hdone, (runTicks_cmd hstart hrun).trans (startOf_cmd i _)⟩

end Sys2Proof.Machine

/-! Proof of the earliest finish (`70_reset_and_hazards.md` R262): a count of the ticks a good result still takes, which no
tick lowers by more than one. -/

namespace Sys2Proof.Machine

/-! ## The ticks a result still takes -/

/-- The fewest ticks in which a running command can come to OK or CHECKSUM: what is left of each delay, one for each wait,
and two for each bit still to come (R134, R137, R166, R176). -/
def ticksToResult (e : Engine) : Nat :=
  match e.phase with
  | .idle => 0
  | .wlWait => 1
  | .pmRise => 2
  | .pmHold => 1
  | .dhWakeLow => wakeLowTicks - e.cnt.toNat + wakeHighTicks + 3 + 2 * (frameBits - e.bitcnt.toNat)
  | .dhWakeHigh => wakeHighTicks - e.cnt.toNat + 3 + 2 * (frameBits - e.bitcnt.toNat)
  | .dhHs1 => 3 + 2 * (frameBits - e.bitcnt.toNat)
  | .dhHs2 => 2 + 2 * (frameBits - e.bitcnt.toNat)
  | .dhHs3 => 1 + 2 * (frameBits - e.bitcnt.toNat)
  | .dhBitRise => 2 * (frameBits - e.bitcnt.toNat)
  | .dhBitHold => 2 * (frameBits - e.bitcnt.toNat) - 1
  | .ecTrigLow => trigPreLowTicks - e.cnt.toNat + trigHighTicks + 2
  | .ecTrigHigh => trigHighTicks - e.cnt.toNat + 2
  | .ecRise => 2
  | .ecHold => 1

/-- A result OK or CHECKSUM is at least n ticks away. -/
structure State.ResultAfter (s : State) (n : Nat) : Prop where
  running : s.eng.busy = true → n ≤ ticksToResult s.eng
  ended : s.eng.res = .ok ∨ s.eng.res = .checksum → n = 0

section
variable {s t : State} {n : Nat}

/-- A command that ended with another code comes to no result by ticks. -/
theorem State.ResultAfter.of_noResult (hb : s.eng.busy = false) (hok : s.eng.res ≠ .ok)
    (hcs : s.eng.res ≠ .checksum) : s.ResultAfter n where
  running := fun h => by simp [hb] at h
  ended := fun hr => by simp [hok, hcs] at hr

/-- A tick that keeps RES and brings the result at most one tick nearer. -/
theorem State.ResultAfter.nearer (h : s.ResultAfter n) (hb : s.eng.busy = true) (hres : t.eng.res = s.eng.res)
    (ht : ticksToResult s.eng ≤ ticksToResult t.eng + 1) : t.ResultAfter (n - 1) where
  running := fun _ => by
    have := h.running hb
    omega
  ended := fun hr => by
    have := h.ended (hres ▸ hr)
    omega

/-- A tick that can be the last one, whatever it leads to. -/
theorem State.ResultAfter.last (h : s.ResultAfter n) (hb : s.eng.busy = true) (hlast : ticksToResult s.eng ≤ 1) :
    t.ResultAfter (n - 1) := by
  have hn : n - 1 = 0 := by
    have := h.running hb
    omega
  exact ⟨fun _ => hn ▸ Nat.zero_le _, fun _ => hn⟩

theorem ticksToResult_countOn (s : State) : ticksToResult s.eng ≤ ticksToResult s.countOn.eng + 1 := by
  simp only [ticksToResult, State.countOn_eng, sat32_toNat]
  cases s.eng.phase <;> simp only <;> omega

/-! ## One tick -/

/-- R133: beside the match, a wait phase times out, which is no result, or counts. -/
theorem State.ResultAfter.waitTick (h : s.ResultAfter n) (hb : s.eng.busy = true) {levels : Levels} {l : Line}
    {v bounded : Bool} {inTime : Nat → Nat → Bool} {onMatch : State → State}
    (hm : (onMatch s).ResultAfter (n - 1)) : (waitTick levels l v bounded inTime onMatch s).ResultAfter (n - 1) := by
  obtain ⟨_, _, he⟩ | ⟨_, _, _, he⟩ | ⟨_, _, he⟩ := waitTick_cases levels l v bounded inTime onMatch s <;> rw [he]
  · exact hm
  · exact .of_noResult rfl (by simp) (by simp)
  · exact h.nearer hb rfl (ticksToResult_countOn s)

theorem State.ResultAfter.handshakeTick (h : s.ResultAfter n) (hb : s.eng.busy = true) {levels : Levels} {v : Level}
    {next : Phase} (hnext : ticksToResult s.eng ≤ ticksToResult (s.enterPhase next).eng + 1) :
    (handshakeTick levels v next s).ResultAfter (n - 1) :=
  h.waitTick hb (h.nearer hb rfl hnext)

/-- R134: a delay is left only at its length. -/
theorem State.ResultAfter.delayTick (h : s.ResultAfter n) (hb : s.eng.busy = true) {d : Nat}
    {action : State → State} {next : Phase} (hact : (action s.countOn).eng.res = s.eng.res)
    (hend : d ≤ s.eng.cnt.toNat + 1 →
      ticksToResult s.eng ≤ ticksToResult ((action s.countOn).enterPhase next).eng + 1) :
    (delayTick d action next s).ResultAfter (n - 1) := by
  obtain ⟨hd, he⟩ | ⟨_, he⟩ := delayTick_cases d action next s <;> rw [he]
  · exact h.nearer hb hact (hend (by omega))
  · exact h.nearer hb rfl (ticksToResult_countOn s)

/-- R166: the frame is extracted only after its 40th bit. -/
theorem State.ResultAfter.bitEnd (h : s.ResultAfter n) (hb : s.eng.busy = true) (hp : s.eng.phase = .dhBitHold)
    (d : Word) : (bitEnd d s).ResultAfter (n - 1) := by
  have hbits : (s.eng.bitcnt + 1).toNat = (s.eng.bitcnt.toNat + 1) % 64 := BitVec.toNat_add _ _
  unfold Machine.bitEnd
  simp only
  split
  case isTrue hlast =>
    refine h.last hb ?_
    rw [storeBit_eng, hbits] at hlast
    simp only [ticksToResult, hp]
    omega
  case isFalse =>
    refine h.nearer hb rfl ?_
    simp only [ticksToResult, hp, State.enterPhase_eng, storeBit_eng, hbits, frameBits]
    omega

/-- Each phase brings the result at most one tick nearer, and only a hold or WL_WAIT can give it. -/
theorem State.ResultAfter.phaseTick (h : s.ResultAfter n) (hb : s.eng.busy = true) (levels : Levels) :
    (phaseTick levels s.eng.phase s).ResultAfter (n - 1) := by
  cases hp : s.eng.phase with
  | idle => exact h.nearer hb rfl (Nat.le_succ _)
  | wlWait => exact h.waitTick hb (h.last hb (by simp [ticksToResult, hp]))
  | pmRise => exact h.waitTick hb (h.nearer hb rfl (by simp [ticksToResult, hp]))
  | pmHold => exact h.waitTick hb (h.last hb (by simp [ticksToResult, hp]))
  | dhWakeLow =>
    refine h.delayTick (action := fun s => s.drive (curLine s.eng) true) hb rfl fun hd => ?_
    simp only [ticksToResult, hp, State.enterPhase_eng, State.drive_eng, State.countOn_eng,
      BitVec.ofNat_eq_ofNat, BitVec.toNat_zero]
    omega
  | dhWakeHigh =>
    refine h.delayTick (action := fun s => s.release (curLine s.eng) .up) hb rfl fun hd => ?_
    simp only [ticksToResult, hp, State.enterPhase_eng, State.release_eng, State.countOn_eng]
    omega
  | dhHs1 => exact h.handshakeTick hb (by simp only [ticksToResult, hp, State.enterPhase_eng]; omega)
  | dhHs2 => exact h.handshakeTick hb (by simp only [ticksToResult, hp, State.enterPhase_eng]; omega)
  | dhHs3 => exact h.handshakeTick hb (by simp only [ticksToResult, hp, State.enterPhase_eng]; omega)
  | dhBitRise =>
    refine h.waitTick hb (h.nearer hb rfl ?_)
    simp only [ticksToResult, hp, State.riseSeen_eng]
    omega
  | dhBitHold => exact h.waitTick hb (h.bitEnd hb hp _)
  | ecTrigLow =>
    refine h.delayTick (action := fun s => s.drive (curTrig s.cfg s.eng) true) hb rfl fun hd => ?_
    simp only [ticksToResult, hp, State.enterPhase_eng, BitVec.ofNat_eq_ofNat, BitVec.toNat_zero]
    omega
  | ecTrigHigh =>
    refine h.delayTick hb (by rw [endTrigger_eng]; rfl) fun hd => ?_
    simp only [ticksToResult, hp, State.enterPhase_eng]
    omega
  | ecRise => exact h.waitTick hb (h.nearer hb rfl (by simp [ticksToResult, hp]))
  | ecHold => exact h.waitTick hb (h.last hb (by simp [ticksToResult, hp]))

theorem State.ResultAfter.tick (h : s.ResultAfter n) {levels : Levels} (ht : Machine.tick levels s = .next t) :
    t.ResultAfter (n - 1) := by
  obtain ⟨hb, rfl⟩ | ⟨hb, _, rfl⟩ := tick_next_cases levels s t ht
  · exact ⟨fun hb' => by simp [hb] at hb', fun hr => by simp [h.ended hr]⟩
  · exact h.phaseTick hb levels

/-! ## Runs of ticks -/

/-- A run that answers, after its first tick. -/
theorem runTicks_cons_next {levels : Levels} {ls : List Levels} (hc : s.cfg.legal = true)
    (h : runTicks (levels :: ls) s = .next t) :
    ∃ u, tick levels s = .next u ∧ u.cfg.legal = true ∧ runTicks ls u = .next t := by
  rw [runTicks, step_feed levels s hc] at h
  cases htick : tick levels s with rw [htick] at h
  | next u =>
    obtain ⟨hcfg, _⟩ := tick_env levels s u htick
    exact ⟨u, rfl, hcfg ▸ hc, h⟩
  | fault | refused => cases h

theorem State.ResultAfter.runTicks {ls : List Levels} (h : s.ResultAfter n) (hc : s.cfg.legal = true)
    (hrun : runTicks ls s = .next t) : t.ResultAfter (n - ls.length) := by
  induction ls generalizing s n with
  | nil =>
    cases hrun
    exact h
  | cons levels ls ih =>
    obtain ⟨u, htick, hu, hrest⟩ := runTicks_cons_next hc hrun
    rw [List.length_cons, Nat.sub_add_eq, Nat.sub_right_comm]
    exact ih (h.tick htick) hu hrest

/-- R262: a command is accepted with its earliest finish before it; an ECHO that is not supported has none. -/
theorem started_resultAfter (i : Instr) (s : State) : (s.started i).ResultAfter (earliestResult i) := by
  cases i with
  | waitlvl => exact ⟨fun _ => le_rfl, nofun⟩
  | pulse => exact ⟨fun _ => le_rfl, nofun⟩
  | dhtread => exact ⟨fun _ => le_rfl, nofun⟩
  | echo sel tmo =>
    rw [State.started]
    obtain ⟨_, he⟩ | ⟨k, _, he⟩ := startOf_echo_cases sel tmo (s.latch (encode (.echo sel tmo))) <;> rw [he]
    · exact .of_noResult rfl (by simp) (by simp)
    · rw [setupLines_frame]
      exact ⟨fun _ => le_rfl, nofun⟩

end

/-- Settles O60: acceptance leaves the earliest finish or no result to come, and each tick is one tick less. -/
theorem noResultBeforeEarliest : Obligations.NoResultBeforeEarliest := by
  intro i s s1 t ls hc hb hexec hrun hr
  rw [exec_eq_accept] at hexec
  obtain ⟨hcfg, hafter⟩ : s1.cfg = s.cfg ∧ s1.ResultAfter (earliestResult i) := by
    obtain ⟨hbusy, _⟩ | ⟨_, _, rfl⟩ | ⟨_, _, rfl⟩ := accept_next_cases _ _ s s1 hexec
    · simp [hb] at hbusy
    · exact ⟨rfl, .of_noResult rfl (by simp) (by simp)⟩
    · exact ⟨startOf_cfg i _, started_resultAfter i s⟩
  exact Nat.le_of_sub_eq_zero ((hafter.runTicks (hcfg ▸ hc) hrun).ended hr)

end Sys2Proof.Machine

/-! Proofs about the command words (`30_encoding.md`): the word cut into the fields of each format, the decoder by
opcode, and the rows of the opcode map as conditions on the fields. -/

namespace Sys2Proof

/-! ## Words cut into fields (R102 to R104) -/

theorem append_eq_append_iff {m n : Nat} {x x' : BitVec m} {y y' : BitVec n} :
    x ++ y = x' ++ y' ↔ x = x' ∧ y = y' := by
  constructor
  · intro h
    have hhigh := congrArg (BitVec.extractLsb' n m) h
    have hlow := congrArg (BitVec.extractLsb' 0 n) h
    simp only [BitVec.extractLsb'_append_eq_left, BitVec.extractLsb'_append_eq_right] at hhigh hlow
    exact ⟨hhigh, hlow⟩
  · rintro ⟨rfl, rfl⟩
    rfl

theorem append_and_eq_append_iff {m n : Nat} {x mx x' : BitVec m} {y my y' : BitVec n} :
    (x ++ y) &&& (mx ++ my) = x' ++ y' ↔ x &&& mx = x' ∧ y &&& my = y' := by
  rw [BitVec.and_append, append_eq_append_iff]

theorem ofBool_getLsbD (w : Word) (i : Nat) : BitVec.ofBool (w.getLsbD i) = w.extractLsb' i 1 := by
  ext j hj
  simp [show j = 0 by omega]

@[simp] theorem fldBit_fldField (w : Word) : fldBit (fldField w) = w.getLsbD 19 := by
  cases h : w.getLsbD 19 <;> simp only [fldField, h] <;> rfl

/-- Format L is the whole word (R102). -/
theorem formatL_eq (w : Word) :
    opField w ++ lineField w ++ BitVec.ofBool (lvlField w) ++ BitVec.ofBool (unbField w) ++ w.extractLsb' 16 5 ++
      tmoField w = w := by
  simp only [opField, lineField, lvlField, unbField, tmoField, ofBool_getLsbD,
    BitVec.extractLsb'_append_extractLsb'_eq_extractLsb', BitVec.extractLsb'_eq_self]

/-- Format D is the whole word (R103). -/
theorem formatD_eq (w : Word) :
    opField w ++ lineField w ++ BitVec.ofBool (w.getLsbD 22) ++ BitVec.ofBool (unbField w) ++ BitVec.ofBool (chkField w) ++
      BitVec.ofBool (fldBit (fldField w)) ++ w.extractLsb' 16 3 ++ tmoField w = w := by
  simp only [opField, lineField, unbField, chkField, fldBit_fldField, tmoField, ofBool_getLsbD,
    BitVec.extractLsb'_append_extractLsb'_eq_extractLsb', BitVec.extractLsb'_eq_self]

/-- Format E is the whole word (R104). -/
theorem formatE_eq (w : Word) : opField w ++ selField w ++ w.extractLsb' 16 4 ++ tmoField w = w := by
  simp only [opField, selField, tmoField, BitVec.extractLsb'_append_extractLsb'_eq_extractLsb',
    BitVec.extractLsb'_eq_self]

theorem reservedClearL_iff (w : Word) : reservedClearL w = true ↔ w.extractLsb' 16 5 = 0 := by simp [reservedClearL]

theorem reservedClearD_iff (w : Word) :
    reservedClearD w = true ↔ w.getLsbD 22 = false ∧ w.extractLsb' 16 3 = 0 := by
  rw [reservedClearD, ← ofBool_getLsbD]
  cases w.getLsbD 22 <;> simp

theorem reservedClearE_iff (w : Word) : reservedClearE w = true ↔ w.extractLsb' 16 4 = 0 := by simp [reservedClearE]

/-! ## The encoding of a word's own fields -/

theorem encode_waitlvl_fields {w : Word} (hop : opField w = 1) (hr : reservedClearL w = true) :
    encode (.waitlvl (lineField w) (lvlField w) (unbField w) (tmoField w)) = w := by
  conv_rhs => rw [← formatL_eq w, hop, (reservedClearL_iff w).1 hr]
  rfl

theorem encode_pulse_fields {w : Word} (hop : opField w = 2) (hr : reservedClearL w = true) :
    encode (.pulse (lineField w) (lvlField w) (unbField w) (tmoField w)) = w := by
  conv_rhs => rw [← formatL_eq w, hop, (reservedClearL_iff w).1 hr]
  rfl

theorem encode_dhtread_fields {w : Word} (hop : opField w = 3) (hr : reservedClearD w = true) :
    encode (.dhtread (lineField w) (unbField w) (chkField w) (fldField w) (tmoField w)) = w := by
  obtain ⟨h22, h16⟩ := (reservedClearD_iff w).1 hr
  conv_rhs => rw [← formatD_eq w, hop, h22, h16]
  rfl

theorem encode_echo_fields {w : Word} (hop : opField w = 4) (hr : reservedClearE w = true) :
    encode (.echo (selField w) (tmoField w)) = w := by
  conv_rhs => rw [← formatE_eq w, hop, (reservedClearE_iff w).1 hr]
  rfl

/-! ## The decoder by opcode (R106, R107) -/

theorem opField_cases (w : Word) :
    opField w = 1 ∨ opField w = 2 ∨ opField w = 3 ∨ opField w = 4 ∨ opField w = 0 ∨ 5 ≤ (opField w).toNat := by
  bv_omega

theorem opField_ne_of_noOp {w : Word} (hop : opField w = 0 ∨ 5 ≤ (opField w).toNat) :
    opField w ≠ 1 ∧ opField w ≠ 2 ∧ opField w ≠ 3 ∧ opField w ≠ 4 := by
  bv_omega

theorem decode_op1 {w : Word} (hop : opField w = 1) (n : Nat) :
    decode n w =
      decodeLined n w (reservedClearL w) (.waitlvl (lineField w) (lvlField w) (unbField w) (tmoField w)) := by
  simp [decode, hop]

theorem decode_op2 {w : Word} (hop : opField w = 2) (n : Nat) :
    decode n w =
      decodeLined n w (reservedClearL w) (.pulse (lineField w) (lvlField w) (unbField w) (tmoField w)) := by
  simp [decode, hop]

theorem decode_op3 {w : Word} (hop : opField w = 3) (n : Nat) :
    decode n w =
      decodeLined n w (reservedClearD w)
        (.dhtread (lineField w) (unbField w) (chkField w) (fldField w) (tmoField w)) := by
  simp [decode, hop]

theorem decode_op4 {w : Word} (hop : opField w = 4) (n : Nat) :
    decode n w =
      if reservedClearE w then .ok (.echo (selField w) (tmoField w)) else .error .reservedBit := by
  simp [decode, hop]

theorem decode_noOp {w : Word} (hop : opField w = 0 ∨ 5 ≤ (opField w).toNat) (n : Nat) :
    decode n w = .error .opcode := by
  obtain ⟨h1, h2, h3, h4⟩ := opField_ne_of_noOp hop
  simp only [decode, h1, h2, h3, h4, if_false]

section
variable {n : Nat} {w : Word} {clear : Bool} {i j : Instr}

theorem decodeLined_eq_ok_iff :
    decodeLined n w clear i = .ok j ↔ clear = true ∧ (lineField w).toNat < n ∧ i = j := by
  unfold decodeLined
  split_ifs <;> simp_all

theorem decodeLined_eq_reservedBit_iff : decodeLined n w clear i = .error .reservedBit ↔ clear = false := by
  unfold decodeLined
  split_ifs <;> simp_all

theorem decodeLined_eq_lineRange_iff :
    decodeLined n w clear i = .error .lineRange ↔ clear = true ∧ n ≤ (lineField w).toNat := by
  unfold decodeLined
  split_ifs <;> simp_all

@[simp] theorem decodeLined_ne_opcode : decodeLined n w clear i ≠ .error .opcode := by
  unfold decodeLined
  split_ifs <;> simp

@[simp] theorem decodeLined_ne_truncated : decodeLined n w clear i ≠ .error .truncated := by
  unfold decodeLined
  split_ifs <;> simp

end

/-! ## Legal words and the opcode map (R106, R108) -/

theorem decode_ok_iff_legalWord (n : Nat) (w : Word) : (∃ i, decode n w = .ok i) ↔ legalWord n w = true := by
  rw [← Machine.decode_isOk]
  cases decode n w <;> simp [Except.isOk, Except.toBool]

theorem legalWord_iff (n : Nat) (w : Word) :
    legalWord n w = true ↔
      (opField w = 1 ∧ reservedClearL w = true ∧ (lineField w).toNat < n) ∨
      (opField w = 2 ∧ reservedClearL w = true ∧ (lineField w).toNat < n) ∨
      (opField w = 3 ∧ reservedClearD w = true ∧ (lineField w).toNat < n) ∨
      (opField w = 4 ∧ reservedClearE w = true) := by
  rw [← decode_ok_iff_legalWord]
  obtain hop | hop | hop | hop | hop := opField_cases w
  · simp [decode_op1 hop, decodeLined_eq_ok_iff, hop]
  · simp [decode_op2 hop, decodeLined_eq_ok_iff, hop]
  · simp [decode_op3 hop, decodeLined_eq_ok_iff, hop]
  · cases hr : reservedClearE w <;> simp [decode_op4 hop, hop, hr]
  · obtain ⟨h1, h2, h3, h4⟩ := opField_ne_of_noOp hop
    simp only [decode_noOp hop, h1, h2, h3, h4]
    simp

/-- The mask of a format-L row covers OP and w[20:16]. -/
theorem and_maskL_eq_iff (w : Word) (op : BitVec 4) :
    w &&& (BitVec.allOnes 4 ++ 0#5 ++ 0#1 ++ 0#1 ++ BitVec.allOnes 5 ++ 0#16) =
        op ++ 0#5 ++ 0#1 ++ 0#1 ++ 0#5 ++ 0#16 ↔
      opField w = op ∧ reservedClearL w = true := by
  conv_lhs => rw [← formatL_eq w]
  refine (append_and_eq_append_iff (m := 4 + 5 + 1 + 1 + 5) (n := 16)).trans ?_
  simp only [append_and_eq_append_iff, BitVec.and_allOnes, BitVec.and_zero, and_true,
    reservedClearL_iff, BitVec.ofNat_eq_ofNat]

/-- The mask of the format-D row covers OP, w[22] and w[18:16]. -/
theorem and_maskD_eq_iff (w : Word) (op : BitVec 4) :
    w &&& (BitVec.allOnes 4 ++ 0#5 ++ BitVec.allOnes 1 ++ 0#1 ++ 0#1 ++ 0#1 ++ BitVec.allOnes 3 ++ 0#16) =
        op ++ 0#5 ++ BitVec.ofBool false ++ 0#1 ++ 0#1 ++ 0#1 ++ 0#3 ++ 0#16 ↔
      opField w = op ∧ reservedClearD w = true := by
  conv_lhs => rw [← formatD_eq w]
  refine (append_and_eq_append_iff (m := 4 + 5 + 1 + 1 + 1 + 1 + 3) (n := 16)).trans ?_
  simp only [append_and_eq_append_iff, BitVec.and_allOnes, BitVec.and_zero, and_true,
    reservedClearD_iff, BitVec.ofNat_eq_ofNat, BitVec.ofBool_eq_iff_eq, and_assoc]

/-- The mask of the format-E row covers OP and w[19:16]. -/
theorem and_maskE_eq_iff (w : Word) (op : BitVec 4) :
    w &&& (BitVec.allOnes 4 ++ 0#8 ++ BitVec.allOnes 4 ++ 0#16) = op ++ 0#8 ++ 0#4 ++ 0#16 ↔
      opField w = op ∧ reservedClearE w = true := by
  conv_lhs => rw [← formatE_eq w]
  refine (append_and_eq_append_iff (m := 4 + 8 + 4) (n := 16)).trans ?_
  simp only [append_and_eq_append_iff, BitVec.and_allOnes, BitVec.and_zero, and_true,
    reservedClearE_iff, BitVec.ofNat_eq_ofNat]

theorem rowMatches_waitlvl (w : Word) :
    rowMatches ⟨"WAITLVL", 0x10000000, 0xF01F0000, true⟩ w = true ↔ opField w = 1 ∧ reservedClearL w = true :=
  beq_iff_eq.trans (and_maskL_eq_iff w 1)

theorem rowMatches_pulse (w : Word) :
    rowMatches ⟨"PULSE", 0x20000000, 0xF01F0000, true⟩ w = true ↔ opField w = 2 ∧ reservedClearL w = true :=
  beq_iff_eq.trans (and_maskL_eq_iff w 2)

theorem rowMatches_dhtread (w : Word) :
    rowMatches ⟨"DHTREAD", 0x30000000, 0xF0470000, true⟩ w = true ↔ opField w = 3 ∧ reservedClearD w = true :=
  beq_iff_eq.trans (and_maskD_eq_iff w 3)

theorem rowMatches_echo (w : Word) :
    rowMatches ⟨"ECHO", 0x40000000, 0xF00F0000, false⟩ w = true ↔ opField w = 4 ∧ reservedClearE w = true :=
  beq_iff_eq.trans (and_maskE_eq_iff w 4)

/-- Every mask covers OP, so a row matches words of its own opcode only. -/
theorem opField_of_rowMatches {r : OpRow} {w : Word} (hr : r ∈ opRows) (h : rowMatches r w = true) :
    opField w = opField r.pattern := by
  simp only [opRows, List.mem_cons, List.not_mem_nil, or_false] at hr
  obtain rfl | rfl | rfl | rfl := hr
  · exact ((rowMatches_waitlvl w).1 h).1
  · exact ((rowMatches_pulse w).1 h).1
  · exact ((rowMatches_dhtread w).1 h).1
  · exact ((rowMatches_echo w).1 h).1

/-- The rows have different opcodes (R106). -/
theorem opRows_opField_inj : ∀ r1 ∈ opRows, ∀ r2 ∈ opRows, opField r1.pattern = opField r2.pattern → r1 = r2 := by
  decide

theorem legalWord_iff_row (n : Nat) (w : Word) :
    legalWord n w = true ↔
      ∃ r ∈ opRows, rowMatches r w = true ∧ (r.hasLine = true → (lineField w).toNat < n) := by
  simp only [legalWord_iff, opRows, List.mem_cons, List.not_mem_nil, or_false, exists_eq_or_imp, exists_eq_left,
    rowMatches_waitlvl, rowMatches_pulse, rowMatches_dhtread, rowMatches_echo, and_assoc]
  simp

/-! ## The obligations -/

/-- Settles O1: the decoder reads every field of the encoded word back. -/
theorem decodeEncodeRoundTrip : Obligations.DecodeEncodeRoundTrip :=
  fun _ _ hwf => decode_encode hwf

/-- Settles O2: in each format the word is its fields and its reserved bits, and a decoded word has those clear. -/
theorem encodeDecodeRoundTrip : Obligations.EncodeDecodeRoundTrip := by
  intro n w i h
  have hencode : encode i = w := by
    obtain hop | hop | hop | hop | hop := opField_cases w
    · rw [decode_op1 hop, decodeLined_eq_ok_iff] at h
      obtain ⟨hr, -, rfl⟩ := h
      exact encode_waitlvl_fields hop hr
    · rw [decode_op2 hop, decodeLined_eq_ok_iff] at h
      obtain ⟨hr, -, rfl⟩ := h
      exact encode_pulse_fields hop hr
    · rw [decode_op3 hop, decodeLined_eq_ok_iff] at h
      obtain ⟨hr, -, rfl⟩ := h
      exact encode_dhtread_fields hop hr
    · rw [decode_op4 hop] at h
      split_ifs at h with hr
      cases h
      exact encode_echo_fields hop hr
    · rw [decode_noOp hop] at h
      cases h
  refine ⟨hencode, ?_⟩
  rw [← legalWord_encode, hencode]
  exact (decode_ok_iff_legalWord n w).1 ⟨i, h⟩

/-- Settles O3, by the decoder's agreement with R108's predicate. -/
theorem decoderMatchesLegality : Obligations.DecoderMatchesLegality :=
  decode_ok_iff_legalWord

/-- Settles O4, opcode by opcode: with OP known, each answer of the decoder is one test of R107. -/
theorem illegalWordReasons : Obligations.IllegalWordReasons := by
  intro n w
  obtain hop | hop | hop | hop | hop := opField_cases w
  · simp [decode_op1 hop, hop, decodeLined_eq_reservedBit_iff, decodeLined_eq_lineRange_iff, reservedClearL]
  · simp [decode_op2 hop, hop, decodeLined_eq_reservedBit_iff, decodeLined_eq_lineRange_iff, reservedClearL]
  · rw [decode_op3 hop, decodeLined_eq_reservedBit_iff, decodeLined_eq_lineRange_iff, ← Bool.not_eq_true,
      reservedClearD_iff]
    simp [hop, Decidable.imp_iff_not_or, and_assoc]
  · cases hr : reservedClearE w <;> simp_all [decode_op4 hop, reservedClearE]
  · obtain ⟨h1, h2, h3, h4⟩ := opField_ne_of_noOp hop
    simp only [decode_noOp hop, hop, h1, h2, h3, h4]
    simp

/-- Settles O5: each mask covers OP and the reserved bits of its row's format. -/
theorem opcodeMapDisjointAndComplete : Obligations.OpcodeMapDisjointAndComplete := by
  intro n w
  refine ⟨fun r1 hr1 r2 hr2 h1 h2 => ?_, legalWord_iff_row n w⟩
  have hop : opField r1.pattern = opField r2.pattern :=
    (opField_of_rowMatches hr1 h1).symm.trans (opField_of_rowMatches hr2 h2)
  exact opRows_opField_inj r1 hr1 r2 hr2 hop

/-- Settles O6: the eight words of R112 are closed, and the decoder runs on them. -/
theorem workedEncodingsDecode : Obligations.WorkedEncodingsDecode := by
  unfold Obligations.WorkedEncodingsDecode
  decide

end Sys2Proof
